-- ==== Sys2Proof/Word.lean ====
section
/-! DEFINITION. The word types of the machine (spec/00_scope.md rules R8, R11: every value is unsigned and of a
fixed width). -/

namespace Sys2Proof

/-- A general register, a timer, a byte of memory, an immediate NN: 8 bits (R20, R31, R50, R73). -/
abbrev Byte := BitVec 8

/-- `pc`, `I`, `ir`, a stack slot, an instruction word: 16 bits (R23, R24, R28, R36, R70). -/
abbrev Word := BitVec 16

/-- The 12-bit address field NNN (R71). -/
abbrev Addr := BitVec 12

/-- The 4-bit fields X and Y, each the index of a general register (R71). -/
abbrev RegIdx := BitVec 4

/-- The 4-bit field N, the height of a sprite (R71), and the primary opcode. -/
abbrev Nibble := BitVec 4

/-- One framebuffer row: 64 pixels, bit 63 the leftmost (R32). -/
abbrev FbRow := BitVec 64

end Sys2Proof
end

