-- ==== Sys2Proof/Config.lean ====
section
/-! DEFINITION. The implementation parameters of spec/00_scope.md rule R8, all fixed by the spec, and the one free
value, the random draw (spec/42_register_ops.md rule R134, spec/60_exceptions.md rule R199). -/

namespace Sys2Proof.Config

/-- MEM_SIZE: bytes of memory, addresses 0x000 to 0xFFF (R8, R50). -/
abbrev memSize : Nat := 4096

/-- LOAD_BASE: where the image begins and where `pc` starts (R8, R221). -/
abbrev loadBase : Nat := 0x200

/-- MAX_IMAGE: the greatest length of an image (R8, R222). -/
abbrev maxImage : Nat := 3584

/-- SPRITE_MAX_X: the greatest horizontal position of a sprite (R8, R152). -/
abbrev spriteMaxX : Nat := 56

/-- FB_ROWS: rows of the framebuffer (R8, R32). -/
abbrev fbRows : Nat := 32

/-- RAND_MAX: the greatest random draw (R8, R134; the range is [0,254] as written, spec/90_conflicts.md C10, log
entry 3). -/
abbrev randMax : Nat := 254

/-- TICK_RATE: the default number of ticks a second. No rule of the model reads it (R9, R100). -/
abbrev tickRateDefault : Nat := 60

end Sys2Proof.Config

namespace Sys2Proof

/-- A value of the random source: 0 to `Config.randMax` (R134, R199). -/
abbrev Draw := Fin (Config.randMax + 1)

/-- The draw the random source gives when the environment has none ready, numbered by how many draws the machine has
consumed. FREE VALUE: it has no body, so nothing can be proved of it but that it is a draw (R134: the model assumes
nothing of the distribution, nor of any relation between successive draws; log entry 3). -/
opaque Config.freeDraw : Nat → Draw

end Sys2Proof
end

