-- ==== Sys2Proof/Syntax.lean ====
section
/-! DEFINITION. The instructions: one constructor for each of the 15 rows of spec/opcode_table.json
(spec/30_encoding.md rules R77, R81). -/

namespace Sys2Proof

/-- An instruction with its operands as the fields of rule R71: `x` and `y` register indexes, `nn` an 8-bit
immediate, `nnn` a 12-bit address, `n` a 4-bit sprite height. Every value of every field is legal (R73, R75), so the
types alone make a term well formed (log entry 21). -/
inductive Instr where
  /-- The zero word (R95). -/
  | halt
  /-- Clear the framebuffer (R150). -/
  | cls
  /-- Return (R111). -/
  | ret
  /-- Jump (R112). -/
  | jp (nnn : Addr)
  /-- Call (R113). -/
  | call (nnn : Addr)
  /-- Skip if register equals immediate (R114). -/
  | sei (x : RegIdx) (nn : Byte)
  /-- Skip if register differs from immediate (R115). -/
  | snei (x : RegIdx) (nn : Byte)
  /-- Skip if two registers are equal (R116). -/
  | ser (x y : RegIdx)
  /-- Load immediate (R131). -/
  | ldi (x : RegIdx) (nn : Byte)
  /-- Add immediate (R132). -/
  | addi (x : RegIdx) (nn : Byte)
  /-- Load index register (R133). -/
  | ldx (nnn : Addr)
  /-- Random masked immediate (R134). -/
  | rnd (x : RegIdx) (nn : Byte)
  /-- Draw sprite (R151). -/
  | drw (x y : RegIdx) (n : Nibble)
  /-- Load delay timer (R170). -/
  | lddt (x : RegIdx)
  /-- Load sound timer (R171). -/
  | ldst (x : RegIdx)
deriving DecidableEq, Repr

/-- The instruction's mnemonic in spec/opcode_table.json (R81). -/
def Instr.mnemonic : Instr → String
  | .halt => "HALT"
  | .cls => "CLS"
  | .ret => "RET"
  | .jp _ => "JP"
  | .call _ => "CALL"
  | .sei _ _ => "SEI"
  | .snei _ _ => "SNEI"
  | .ser _ _ => "SER"
  | .ldi _ _ => "LDI"
  | .addi _ _ => "ADDI"
  | .ldx _ => "LDX"
  | .rnd _ _ => "RND"
  | .drw _ _ _ => "DRW"
  | .lddt _ => "LDDT"
  | .ldst _ => "LDST"

end Sys2Proof
end

