-- ==== Sys2Proof/WellFormed.lean ====
section
/-! DEFINITION. What is well formed. A term of `Instr` always is: its field types hold exactly the operand values the
encoding admits (spec/30_encoding.md rules R73, R75). What can be ill formed is the raw material: an instruction WORD
(legal if and only if it matches a row of the opcode map, R77, R78) and a program IMAGE (legal if and only if it is no
longer than 3584 bytes, spec/70_reset_and_hazards.md rules R222, R223). -/

namespace Sys2Proof

/-- One row of the opcode map of rule R77: a word is the instruction if and only if `w & mask = pattern`. -/
structure OpRow where
  mnemonic : String
  pattern  : Word
  mask     : Word
deriving DecidableEq, Repr

/-- The opcode map of rule R77, row by row, written from its columns "match" and "mask". -/
def opcodeTable : List OpRow :=
  [ ⟨"HALT", 0x0000, 0xFFFF⟩, ⟨"CLS",  0x00E0, 0xFFFF⟩, ⟨"RET",  0x00EE, 0xFFFF⟩,
    ⟨"JP",   0x1000, 0xF000⟩, ⟨"CALL", 0x2000, 0xF000⟩, ⟨"SEI",  0x3000, 0xF000⟩,
    ⟨"SNEI", 0x4000, 0xF000⟩, ⟨"SER",  0x5000, 0xF00F⟩, ⟨"LDI",  0x6000, 0xF000⟩,
    ⟨"ADDI", 0x7000, 0xF000⟩, ⟨"LDX",  0xA000, 0xF000⟩, ⟨"RND",  0xC000, 0xF000⟩,
    ⟨"DRW",  0xD000, 0xF000⟩, ⟨"LDDT", 0xF015, 0xF0FF⟩, ⟨"LDST", 0xF018, 0xF0FF⟩ ]

/-- The row claims the word (R77). -/
def OpRow.covers (r : OpRow) (w : Word) : Bool := w &&& r.mask == r.pattern

/-- The rows that claim a word; R75 says there is never more than one. -/
def matchingRows (w : Word) : List OpRow := opcodeTable.filter (·.covers w)

/-- The word is one of the machine's instructions; every other word is illegal (R78). -/
def Word.legal (w : Word) : Bool := opcodeTable.any (·.covers w)

/-- The image can be loaded (R222); a longer one is refused whole (R223). -/
def imageFits (img : List Byte) : Bool := decide (img.length ≤ Config.maxImage)

end Sys2Proof
end

