-- ==== Sys2Proof/Decode.lean ====
section
/-! DEFINITION. The decoder (spec/30_encoding.md rules R71, R74) and, after it, the encoder (R72, R77), and the bytes
of an instruction in memory (R70, R53). -/

namespace Sys2Proof

/-! ## The fields of an instruction word (R71) -/

/-- OP, bits 15:12. -/
def fieldOp (w : Word) : Nibble := w.extractLsb' 12 4

/-- X, bits 11:8. -/
def fieldX (w : Word) : RegIdx := w.extractLsb' 8 4

/-- Y, bits 7:4. -/
def fieldY (w : Word) : RegIdx := w.extractLsb' 4 4

/-- N, bits 3:0. -/
def fieldN (w : Word) : Nibble := w.extractLsb' 0 4

/-- NN, bits 7:0. -/
def fieldNN (w : Word) : Byte := w.extractLsb' 0 8

/-- NNN, bits 11:0. -/
def fieldNNN (w : Word) : Addr := w.extractLsb' 0 12

/-- The words with OP = 0: HALT, CLS and RET, each a whole word (R80). The zero word is read as HALT here; the spec
recognises it one moment earlier, in the fetch step (R76), with the same outcome (log entry 12). -/
def decodeOp0 (w : Word) : Option Instr :=
  if w.toNat = 0x0000 then some .halt
  else if w.toNat = 0x00E0 then some .cls
  else if w.toNat = 0x00EE then some .ret
  else none

/-- The words with OP = 5: SER needs a zero low nibble (R80). -/
def decodeOp5 (w : Word) : Option Instr := if fieldN w = 0x0 then some (.ser (fieldX w) (fieldY w)) else none

/-- The words with OP = 0xF: LDDT and LDST need their whole low byte (R80). -/
def decodeOpF (w : Word) : Option Instr :=
  if fieldNN w = 0x15 then some (.lddt (fieldX w))
  else if fieldNN w = 0x18 then some (.ldst (fieldX w))
  else none

/-- The decoder of rule R74, total on every word: `none` is its `Unknown`, the word no row claims. The bits a row fixes
are matched exactly (R80, log entry 17). -/
def decodeWord (w : Word) : Option Instr :=
  match (fieldOp w).toNat with
  | 0x0 => decodeOp0 w
  | 0x1 => some (.jp (fieldNNN w))
  | 0x2 => some (.call (fieldNNN w))
  | 0x3 => some (.sei (fieldX w) (fieldNN w))
  | 0x4 => some (.snei (fieldX w) (fieldNN w))
  | 0x5 => decodeOp5 w
  | 0x6 => some (.ldi (fieldX w) (fieldNN w))
  | 0x7 => some (.addi (fieldX w) (fieldNN w))
  | 0xA => some (.ldx (fieldNNN w))
  | 0xC => some (.rnd (fieldX w) (fieldNN w))
  | 0xD => some (.drw (fieldX w) (fieldY w) (fieldN w))
  | 0xF => decodeOpF w
  | _ => none

/-- Why bytes are no instruction. -/
inductive DecodeReject where
  /-- The word matches no row of the opcode map (R78). -/
  | unknownOpcode (w : Word)
  /-- Fewer than two bytes (R70: an instruction is always two). -/
  | truncated
deriving DecidableEq, Repr

/-- Two bytes as a word, the byte at the lower address in the high half (R53). -/
def wordOfBytes (hi lo : Byte) : Word := (hi.setWidth 16 <<< 8) ||| lo.setWidth 16

/-- The bytes of a word in address order, the high byte first (R53, R70). -/
def bytesOfWord (w : Word) : List Byte := [w.extractLsb' 8 8, w.extractLsb' 0 8]

/-- The decoder on bytes: the instruction and the bytes after it, or the reason there is none. -/
def decode : List Byte → Except DecodeReject (Instr × List Byte)
  | hi :: lo :: rest =>
    match decodeWord (wordOfBytes hi lo) with
    | some i => .ok (i, rest)
    | none => .error (.unknownOpcode (wordOfBytes hi lo))
  | _ => .error .truncated

/-! ## The encoder (R72, R77) -/

/-- A field in its place: its lowest bit at bit `lo` of the word (R71). -/
def place {k : Nat} (v : BitVec k) (lo : Nat) : Word := v.setWidth 16 <<< lo

/-- The word of an instruction, format by format: W (whole word fixed), A (OP, NNN), XI (OP, X, NN), XY (OP, X, Y, 0),
XYN (OP, X, Y, N), XF (OP, X, function byte). -/
def encode : Instr → Word
  | .halt => 0x0000
  | .cls => 0x00E0
  | .ret => 0x00EE
  | .jp nnn => 0x1000 ||| place nnn 0
  | .call nnn => 0x2000 ||| place nnn 0
  | .sei x nn => 0x3000 ||| place x 8 ||| place nn 0
  | .snei x nn => 0x4000 ||| place x 8 ||| place nn 0
  | .ser x y => 0x5000 ||| place x 8 ||| place y 4
  | .ldi x nn => 0x6000 ||| place x 8 ||| place nn 0
  | .addi x nn => 0x7000 ||| place x 8 ||| place nn 0
  | .ldx nnn => 0xA000 ||| place nnn 0
  | .rnd x nn => 0xC000 ||| place x 8 ||| place nn 0
  | .drw x y n => 0xD000 ||| place x 8 ||| place y 4 ||| place n 0
  | .lddt x => 0xF015 ||| place x 8
  | .ldst x => 0xF018 ||| place x 8

/-- The bytes of an instruction in memory, in address order. -/
def encodeBytes (i : Instr) : List Byte := bytesOfWord (encode i)

/-! ## The host's numbering of table words -/

/-- The word whose low `nbits` bits are those of `w` and whose other bits are 0. -/
def tableWord (nbits w : Nat) : Word := BitVec.ofNat 16 (w % 2 ^ nbits)

/-- What the decoder reads from the bytes of a table word. -/
def decodeTableWord (nbits w : Nat) : Option Instr :=
  match decode (bytesOfWord (tableWord nbits w)) with
  | .ok (i, _) => some i
  | .error _ => none

end Sys2Proof
end

