-- ==== Sys2Proof/Machine/State.lean ====
section
/-! DEFINITION. The state of the machine (spec/10_state.md), the reasons a step can stop, and the state after reset. -/

namespace Sys2Proof.Machine

/-- The state of the loop (spec/10_state.md rule R37). -/
inductive RunState where
  | running
  | halted
deriving DecidableEq, Repr

/-- Why the machine halted: the names of spec/60_exceptions.md rule R181. The 4-bit codes are `Cause.code`
(Machine/Ops.lean); the spec lets a model hold the names (spec/92_eei_decisions.md D14, log entry 13). -/
inductive Cause where
  /-- Code 0, while the machine runs. -/
  | none
  /-- Code 1, the fetched word is 0x0000. -/
  | haltZero
  /-- Code 2, the stop request was asserted at the top of a tick. -/
  | externalStop
  /-- Code 3, the fetched word matches no encoding. -/
  | unknownOpcode
  /-- Code 4, `pc > 0xFFE` at the start of fetch. -/
  | fetchBounds
  /-- Code 5, CALL with `sp = 15`. -/
  | stackOverflow
  /-- Code 6, RET with `sp = 0`. -/
  | stackUnderflow
  /-- Code 7, DRW with N at least 1 and `x[X] > 56`. -/
  | spriteXRange
  /-- Code 8, DRW with N at least 1 and `x[Y] + N > 32`. -/
  | spriteRowRange
  /-- Code 9, DRW with N at least 1 and `I + N > 4096`. -/
  | spriteMemBounds
deriving DecidableEq, Repr

/-- Memory as pairs of address and byte, addresses strictly rising, no byte equal to 0x00, which is what an unlisted
address reads as (spec/70_reset_and_hazards.md rule R226, log entry 9). `Memory.wf` (Machine/Ops.lean) says this. -/
abbrev Memory := List Host.Cell

/-- The 32 framebuffer rows, row 0 first (spec/10_state.md rule R32); also one delivered frame (R197). -/
abbrev Frame := Vector FbRow 32

/-- The interfaces of spec/60_exceptions.md rule R195 as data. Rule R39 (spec/10_state.md) says they are inputs and
outputs, not machine state: they are the MODEL's own fields (log entries 2, 3, 6, 7, 8). -/
structure Ports where
  /-- The stop request at the top of each coming tick, the next one first; past the end it is not asserted (R92). -/
  stops : List Bool
  /-- The random draws the environment has ready, the next one first (R199). -/
  draws : List Draw
  /-- How many draws have been consumed; numbers the free draws. -/
  drawCount : Nat
  /-- The 16 key flags, which nothing reads (R198). -/
  keys : BitVec 16
  /-- The Input Source's exit flag, which nothing reads (R188, R198). -/
  exitFlag : Bool
  /-- The debug toggle (R202). -/
  debug : Bool
  /-- The frames delivered to the Display Sink, the newest first (R196). -/
  frames : List Frame
  /-- The words shown on the trace output, the newest first (R202). -/
  trace : List Word
deriving DecidableEq, Repr

/-- The machine: the record of spec/10_state.md under the spec's own names, and the ports. -/
structure State where
  /-- General registers (R20). -/
  x : Vector Byte 16
  /-- Index register (R23). -/
  I : Word
  /-- Program counter (R24). -/
  pc : Word
  /-- Stack pointer, the next free slot (R29). -/
  sp : BitVec 4
  /-- Call stack (R28). -/
  stack : Vector Word 16
  /-- Delay timer (R31). -/
  dt : Byte
  /-- Sound timer (R31). -/
  st : Byte
  /-- Framebuffer (R32). -/
  fb : Frame
  /-- Redraw-requested flag (R35). -/
  redraw : Bool
  /-- Instruction register (R36). -/
  ir : Word
  /-- Run state (R37). -/
  run : RunState
  /-- Terminal cause (R37). -/
  cause : Cause
  /-- Memory (spec/20_memory.md rule R50). -/
  mem : Memory
  /-- The interfaces (MODEL). -/
  ports : Ports
deriving DecidableEq, Repr

/-- Why a step gives no next state. -/
inductive Fault where
  /-- Raised by `step` on a HALTED machine: no tick happens (spec/40_cycle.md rule R91). Safe: the hardware does
  nothing there either (log entry 1). -/
  | machineHalted
deriving DecidableEq, Repr

/-- Why an instruction has no meaning. -/
inductive Refusal where
  /-- Raised by `exec`'s arm of an instruction that has no meaning yet; no arm raises it now. Safe. -/
  | notModelled (mnemonic : String)
deriving DecidableEq, Repr

/-- The ports at reset: nothing requested, nothing ready, nothing delivered (DESIGN CHOICE, log entries 2, 3, 6, 7, 8). -/
def Ports.reset : Ports :=
  { stops := [], draws := [], drawCount := 0, keys := 0, exitFlag := false, debug := false, frames := [], trace := [] }

/-- The machine right after reset with an empty image (spec/10_state.md rule R40, spec/70_reset_and_hazards.md rules
R220, R226). `launch` (Machine/Load.lean) is reset and load of an image. -/
def State.reset : State :=
  { x := Vector.replicate 16 0
    I := 0
    pc := 0x0200
    sp := 0
    stack := Vector.replicate 16 0
    dt := 0
    st := 0
    fb := Vector.replicate 32 0
    redraw := false
    ir := 0
    run := .running
    cause := .none
    mem := []
    ports := Ports.reset }

end Sys2Proof.Machine
end

