-- ==== Sys2Proof/Machine/Ops.lean ====
section
/-! DEFINITION. The named operations over memory, registers, the call stack, the random source and the status, and
the one operation every terminal event takes. There is no return from a terminal event: spec/60_exceptions.md rule
R186 says nothing resumes, and only a new reset and load (`launch`, Machine/Load.lean) leaves HALTED. -/

namespace Sys2Proof.Machine

/-! ## Memory (spec/20_memory.md, spec/00_scope.md rule R14) -/

/-- `mem[a]`. The callers check `a + n ≤ 4096` first, as R14 says; an address nothing lists reads 0x00 (R226). -/
def Memory.read : Memory → Nat → Byte
  | [], _ => 0
  | (k, v) :: m, a => if k = a then v else Memory.read m a

/-- Put a byte into the list in its place, or take the entry out if the byte is 0x00. -/
def Memory.insert : Memory → Nat → Byte → Memory
  | [], a, v => if v = 0 then [] else [(a, v)]
  | (k, w) :: m, a, v =>
    if a < k then (if v = 0 then (k, w) :: m else (a, v) :: (k, w) :: m)
    else if a = k then (if v = 0 then m else (a, v) :: m)
    else (k, w) :: Memory.insert m a v

/-- `mem[a] <- v`. Only the loader writes memory (R57). An address outside the memory is left alone (log entry 10). -/
def Memory.write (m : Memory) (a : Nat) (v : Byte) : Memory :=
  if a < Config.memSize then m.insert a v else m

/-- Addresses strictly rising from `lo`, all inside memory, no byte 0x00. -/
def Memory.wfFrom : Nat → Memory → Bool
  | _, [] => true
  | lo, (k, v) :: m => decide (lo ≤ k) && decide (k < Config.memSize) && decide (v ≠ 0) && Memory.wfFrom (k + 1) m

/-- The canonical form of memory. -/
def Memory.wf (m : Memory) : Bool := Memory.wfFrom 0 m

/-- Write bytes at ascending addresses from `a`. -/
def Memory.writeAll : Memory → Nat → List Byte → Memory
  | m, _, [] => m
  | m, a, b :: bs => Memory.writeAll (m.write a b) (a + 1) bs

/-- `MemRead(a, n)` byte by byte: the `n` bytes from `a` in ascending order (R14, R54). -/
def Memory.bytes (m : Memory) : Nat → Nat → List Byte
  | _, 0 => []
  | a, n + 1 => m.read a :: Memory.bytes m (a + 1) n

/-- `MemRead(a, 2)`, big-endian (R14, R53). -/
def Memory.readWord (m : Memory) (a : Nat) : Word := wordOfBytes (m.read a) (m.read (a + 1))

/-! ## Registers (spec/10_state.md) -/

/-- `x[i]` (R20: no register is hardwired). -/
def State.readX (s : State) (i : RegIdx) : Byte := s.x[i.toNat]'i.isLt

/-- `x[i] <- v` (R20). -/
def State.writeX (s : State) (i : RegIdx) (v : Byte) : State := { s with x := s.x.set i.toNat v i.isLt }

/-- `I <- v` (R23). -/
def State.writeI (s : State) (v : Word) : State := { s with I := v }

/-- `pc <- v` (R24). -/
def State.writePc (s : State) (v : Word) : State := { s with pc := v }

/-- `pc <- pc + n`, modulo 65536 (R25, R27, log entry 14). -/
def State.advance (s : State) (n : Word) : State := s.writePc (s.pc + n)

/-- `sp <- v` (R29). -/
def State.writeSp (s : State) (v : BitVec 4) : State := { s with sp := v }

/-- `stack[k]` (R28). -/
def State.readSlot (s : State) (k : BitVec 4) : Word := s.stack[k.toNat]'k.isLt

/-- `stack[k] <- v` (R28). -/
def State.writeSlot (s : State) (k : BitVec 4) (v : Word) : State := { s with stack := s.stack.set k.toNat v k.isLt }

/-- `dt <- v` (R31). -/
def State.writeDt (s : State) (v : Byte) : State := { s with dt := v }

/-- `st <- v` (R31). -/
def State.writeSt (s : State) (v : Byte) : State := { s with st := v }

/-- All rows of the framebuffer at once (R34). -/
def State.writeFb (s : State) (f : Frame) : State := { s with fb := f }

/-- `ir <- w` (R36). -/
def State.writeIr (s : State) (w : Word) : State := { s with ir := w }

/-- The interfaces. -/
def State.writePorts (s : State) (p : Ports) : State := { s with ports := p }

/-! ## The call stack (spec/41_control_flow.md rules R111, R113) -/

/-- `stack[sp] <- v ; sp <- sp + 1`. -/
def State.push (s : State) (v : Word) : State := (s.writeSlot s.sp v).writeSp (s.sp + 1)

/-- `sp <- sp − 1 ; pc <- stack[sp] ; stack[sp] <- 0`. -/
def State.popPc (s : State) : State := ((s.writeSp (s.sp - 1)).writePc (s.readSlot (s.sp - 1))).writeSlot (s.sp - 1) 0

/-! ## The random source (spec/60_exceptions.md rule R199) -/

/-- The draw the next RND reads: the environment's next ready one, or else the free draw of this number. -/
def Ports.nextDraw (p : Ports) : Draw :=
  match p.draws with
  | r :: _ => r
  | [] => Config.freeDraw p.drawCount

/-- One draw is consumed (R134). -/
def Ports.consumeDraw (p : Ports) : Ports := { p with draws := p.draws.tail, drawCount := p.drawCount + 1 }

/-- A draw as a byte. -/
def Draw.toByte (r : Draw) : Byte := BitVec.ofNat 8 r.val

/-! ## Terminal events (spec/60_exceptions.md rules R180 to R186) -/

/-- The numeric code of a cause (R181). -/
def Cause.code : Cause → BitVec 4
  | .none => 0
  | .haltZero => 1
  | .externalStop => 2
  | .unknownOpcode => 3
  | .fetchBounds => 4
  | .stackOverflow => 5
  | .stackUnderflow => 6
  | .spriteXRange => 7
  | .spriteRowRange => 8
  | .spriteMemBounds => 9

/-- Taking a terminal event: `run <- HALTED`, `cause <- c`, and nothing else (R184, R185). `pc` stays at the
instruction and `ir` keeps its word. -/
def State.raise (c : Cause) (s : State) : State := { s with run := .halted, cause := c }

/-! ## Status (spec/60_exceptions.md rule R201) -/

/-- What the environment can observe at a tick boundary: `run`, `cause`, `ir`, `pc`. -/
def State.status (s : State) : RunState × BitVec 4 × Word × Word := (s.run, s.cause.code, s.ir, s.pc)

end Sys2Proof.Machine
end

