-- ==== Sys2Proof/Machine/Operands.lean ====
section
/-! DEFINITION. The operand forms of the instructions (spec/30_encoding.md rule R73) and the arithmetic of a sprite
row (spec/43_display.md rules R151 to R154). -/

namespace Sys2Proof.Machine

/-- A 12-bit address operand as a 16-bit value: zero-extended, never signed or scaled (R73). -/
def zext16 (nnn : Addr) : Word := nnn.setWidth 16

/-- What a skip adds to `pc`: 4 if its condition holds, else 2 (R25). -/
def skipBy (c : Bool) : Word := if c then 4 else 2

/-- A sprite byte in its place in a row word: `zext_64(b) << (56 − vx)`, for `vx` at most 56 (R151, R153). -/
def spriteRow (b : Byte) (vx : Nat) : FbRow := b.setWidth 64 <<< (Config.spriteMaxX - vx)

/-- The fault of a DRW that does not fit, the first of the three conditions of rule R152 that holds; none is tested
when N = 0 (R157). The sums are of plain numbers. -/
def spriteFault (vx vy n addr : Nat) : Option Cause :=
  if n = 0 then none
  else if vx > Config.spriteMaxX then some .spriteXRange
  else if vy + n > Config.fbRows then some .spriteRowRange
  else if addr + n > Config.memSize then some .spriteMemBounds
  else none

/-- Row `r` of a frame; a row the frame does not have reads 0 and is never asked for (R152). -/
def Frame.row (f : Frame) (r : Nat) : FbRow := f[r]?.getD 0

/-- The pixel in column `c` of row `r` is bit `63 − c` of the row, for `c` at most 63 (R33). -/
def Frame.pixel (f : Frame) (c r : Nat) : Bool := decide (c < 64) && (Frame.row f r).getLsbD (63 - c)

/-- `fb[r] <- fb[r] | bits` (R154, R155). -/
def Frame.orRow (f : Frame) (r : Nat) (bits : FbRow) : Frame := f.setIfInBounds r (Frame.row f r ||| bits)

/-- The loop of DRW: the sprite's bytes, top row first, each ORed into the next row down (R151). -/
def Frame.blit (f : Frame) (vx : Nat) : Nat → List Byte → Frame
  | _, [] => f
  | r, b :: bs => Frame.blit (Frame.orRow f r (spriteRow b vx)) vx (r + 1) bs

/-- A frame of dark pixels (R150). -/
def Frame.dark : Frame := Vector.replicate 32 0

end Sys2Proof.Machine
end

