-- ==== Sys2Proof/Machine/Control.lean ====
section
/-! DEFINITION. The control-flow instructions RET, JP, CALL, SEI, SNEI, SER (spec/41_control_flow.md). -/

namespace Sys2Proof.Machine

/-- RET (R111): the popped slot goes to `pc` unchanged, so control returns to the CALL itself. With `sp = 0` it raises
StackUnderflow and changes nothing. -/
def execRet (s : State) : Host.Outcome State Fault Refusal :=
  if s.sp = 0 then .next (s.raise .stackUnderflow) else .next s.popPc

/-- JP (R112). -/
def execJp (nnn : Addr) (s : State) : Host.Outcome State Fault Refusal := .next (s.writePc (zext16 nnn))

/-- CALL (R113): pushes the address of the CALL itself. With `sp = 15` it raises StackOverflow and changes nothing. -/
def execCall (nnn : Addr) (s : State) : Host.Outcome State Fault Refusal :=
  if s.sp = 15 then .next (s.raise .stackOverflow) else .next ((s.push s.pc).writePc (zext16 nnn))

/-- SEI (R114). -/
def execSei (x : RegIdx) (nn : Byte) (s : State) : Host.Outcome State Fault Refusal :=
  .next (s.advance (skipBy (s.readX x == nn)))

/-- SNEI (R115). -/
def execSnei (x : RegIdx) (nn : Byte) (s : State) : Host.Outcome State Fault Refusal :=
  .next (s.advance (skipBy (s.readX x != nn)))

/-- SER (R116). -/
def execSer (x y : RegIdx) (s : State) : Host.Outcome State Fault Refusal :=
  .next (s.advance (skipBy (s.readX x == s.readX y)))

end Sys2Proof.Machine
end

