-- ==== Sys2Proof/Machine/Flags.lean ====
section
/-! DEFINITION. The machine's one flag, `redraw` (spec/10_state.md rule R35). There is no carry, overflow, zero or
collision flag (R22, R35, R130). -/

namespace Sys2Proof.Machine

/-- `redraw <- 1` (R150, R151). -/
def State.setRedraw (s : State) : State := { s with redraw := true }

/-- `redraw <- 0` (spec/40_cycle.md rule R98). -/
def State.clearRedraw (s : State) : State := { s with redraw := false }

end Sys2Proof.Machine
end

