-- ==== Sys2Proof/Machine/Display.lean ====
section
/-! DEFINITION. The display instructions CLS, DRW (spec/43_display.md). -/

namespace Sys2Proof.Machine

/-- CLS (R150). -/
def execCls (s : State) : Host.Outcome State Fault Refusal :=
  .next ((s.writeFb Frame.dark).setRedraw.advance 2)

/-- The framebuffer after the loop of DRW: N sprite bytes from `I` at column `x[X]`, row `x[Y]` (R151, R154). -/
def State.drawn (s : State) (x y : RegIdx) (n : Nibble) : Frame :=
  Frame.blit s.fb (s.readX x).toNat (s.readX y).toNat (s.mem.bytes s.I.toNat n.toNat)

/-- DRW (R151): the checks of rule R152 come first, and a DRW that fails one changes nothing. -/
def execDrw (x y : RegIdx) (n : Nibble) (s : State) : Host.Outcome State Fault Refusal :=
  match spriteFault (s.readX x).toNat (s.readX y).toNat n.toNat s.I.toNat with
  | some c => .next (s.raise c)
  | none => .next ((s.writeFb (s.drawn x y n)).setRedraw.advance 2)

end Sys2Proof.Machine
end

