-- ==== Sys2Proof/Machine/Register.lean ====
section
/-! DEFINITION. The register instructions LDI, ADDI, LDX, RND (spec/42_register_ops.md). -/

namespace Sys2Proof.Machine

/-- LDI (R131). -/
def execLdi (x : RegIdx) (nn : Byte) (s : State) : Host.Outcome State Fault Refusal :=
  .next ((s.writeX x nn).advance 2)

/-- ADDI (R132): the sum is modulo 256 and no flag is written. -/
def execAddi (x : RegIdx) (nn : Byte) (s : State) : Host.Outcome State Fault Refusal :=
  .next ((s.writeX x (s.readX x + nn)).advance 2)

/-- LDX (R133): bits 15:12 of `I` become 0. -/
def execLdx (nnn : Addr) (s : State) : Host.Outcome State Fault Refusal :=
  .next ((s.writeI (zext16 nnn)).advance 2)

/-- RND (R134): `x[X] <- NN & r` for one draw `r`, which is consumed. -/
def execRnd (x : RegIdx) (nn : Byte) (s : State) : Host.Outcome State Fault Refusal :=
  .next (((s.writeX x (nn &&& Draw.toByte s.ports.nextDraw)).writePorts s.ports.consumeDraw).advance 2)

end Sys2Proof.Machine
end

