-- ==== Sys2Proof/Machine/System.lean ====
section
/-! DEFINITION. HALT, the zero word (spec/40_cycle.md rule R95). -/

namespace Sys2Proof.Machine

/-- HALT: the terminal event HaltZero, the normal end of a run. The fetch has already written 0x0000 to `ir`. -/
def execHalt (s : State) : Host.Outcome State Fault Refusal := .next (s.raise .haltZero)

end Sys2Proof.Machine
end

