-- ==== Sys2Proof/Machine/Timer.lean ====
section
/-! DEFINITION. The timer instructions LDDT, LDST (spec/44_timers.md). -/

namespace Sys2Proof.Machine

/-- LDDT (R170). -/
def execLddt (x : RegIdx) (s : State) : Host.Outcome State Fault Refusal :=
  .next ((s.writeDt (s.readX x)).advance 2)

/-- LDST (R171). -/
def execLdst (x : RegIdx) (s : State) : Host.Outcome State Fault Refusal :=
  .next ((s.writeSt (s.readX x)).advance 2)

end Sys2Proof.Machine
end

