-- ==== Sys2Proof/Machine/Load.lean ====
section
/-! DEFINITION. Reset and program load (spec/70_reset_and_hazards.md rules R220 to R226). -/

namespace Sys2Proof.Machine

/-- The loader's refusal. It is no event of the running machine and has no cause code (spec/60_exceptions.md R183). -/
inductive LoadError where
  /-- The image is longer than 3584 bytes (R223). -/
  | imageTooLong (length : Nat)
deriving DecidableEq, Repr

/-- Memory after a load: all 0x00, then the image from 0x200 (R222). -/
def Memory.ofImage (img : List Byte) : Memory := Memory.writeAll [] Config.loadBase img

/-- Reset and load: the launch state of an image, or LoadError with no machine state at all (R220, R222, R223). A
reload is a new `launch` (R224). -/
def launch (img : List Byte) : Except LoadError State :=
  if imageFits img then .ok { State.reset with mem := Memory.ofImage img } else .error (.imageTooLong img.length)

end Sys2Proof.Machine
end

