-- ==== Sys2Proof/Machine/Tick.lean ====
section
/-! DEFINITION. The parts of a tick around the instruction (spec/40_cycle.md): stop request, fetch, frame delivery,
timer decrement. -/

namespace Sys2Proof.Machine

/-! ## Before the instruction: steps 0 to 2 -/

/-- The stop request as sampled at the top of this tick (R92). -/
def State.stopAsserted (s : State) : Bool := s.ports.stops.headD false

/-- This tick's sample is used up; nothing of the machine changes. -/
def State.sampleStop (s : State) : State := s.writePorts { s.ports with stops := s.ports.stops.tail }

/-- Both bytes of a fetch are inside memory: `pc ≤ 0xFFE` (R58, R94). -/
def State.canFetch (s : State) : Bool := decide (s.pc.toNat + 2 ≤ Config.memSize)

/-- `MemRead(pc, 2)` (R93). -/
def State.fetchWord (s : State) : Word := s.mem.readWord s.pc.toNat

/-- The trace output of a fetched word, if the debug toggle is on (R202). -/
def Ports.showWord (p : Ports) (w : Word) : Ports := if p.debug then { p with trace := w :: p.trace } else p

/-- `ir <- MemRead(pc, 2)`; `pc` is not changed by fetch (R93). -/
def State.fetch (s : State) : State := (s.writeIr s.fetchWord).writePorts (s.ports.showWord s.fetchWord)

/-- The state an instruction runs in: the stop sample used up and the word in `ir`. -/
def State.fetched (s : State) : State := s.sampleStop.fetch

/-- How a tick begins. -/
inductive TickStart where
  /-- The machine is HALTED: no tick (R91). -/
  | noTick
  /-- A terminal event ends the tick before any instruction runs. -/
  | ended (s : State)
  /-- The instruction runs in this state. -/
  | execute (i : Instr) (s : State)
deriving DecidableEq, Repr

/-- Steps 0 to 2 and the decoding of step 3, in the order of rule R101 (the priority of spec/60_exceptions.md R189). -/
def State.startTick (s : State) : TickStart :=
  if s.run = .halted then .noTick
  else if s.stopAsserted then .ended (s.raise .externalStop)
  else if s.canFetch then
    match decodeWord s.fetchWord with
    | some i => .execute i s.fetched
    | none => .ended (s.fetched.raise .unknownOpcode)
  else .ended (s.sampleStop.raise .fetchBounds)

/-! ## After the instruction: steps 4 and 5 -/

/-- Step 4: if `redraw` is set, hand the framebuffer to the Display Sink and clear the flag (R98). -/
def State.deliverFrame (s : State) : State :=
  if s.redraw then (s.writePorts { s.ports with frames := s.fb :: s.ports.frames }).clearRedraw else s

/-- A timer counts down by 1 and stops at 0 (R99). -/
def countDown (v : Byte) : Byte := if v = 0 then 0 else v - 1

/-- Step 5: both timers (R99). -/
def State.tickTimers (s : State) : State := (s.writeDt (countDown s.dt)).writeSt (countDown s.st)

/-- Steps 4 and 5, which a tick that ended in a terminal event does not reach (R95, R96, R97). -/
def State.finishTick (s : State) : State := if s.run = .halted then s else s.deliverFrame.tickTimers

end Sys2Proof.Machine
end

