-- ==== Sys2Proof/Machine/Step.lean ====
section
/-! DEFINITION. One step is one tick (spec/40_cycle.md rule R101). -/

namespace Sys2Proof.Machine

/-- The tick. Its inputs `stop` and `r` of rule R101 are taken from `State.ports`. -/
def step (s : State) : Host.Outcome State Fault Refusal :=
  match s.startTick with
  | .noTick => .fault .machineHalted
  | .ended t => .next t
  | .execute i t =>
    match exec i t with
    | .next u => .next u.finishTick
    | .fault f => .fault f
    | .refused r => .refused r

/-- The state with a table word stored at `pc`, where the next step fetches it. It stands for the load of a program
(spec/70_reset_and_hazards.md rule R222, log entry 11). Where the state could not fetch at all it also makes the least
change a fetch needs: a HALTED machine runs, a pending stop request is withdrawn, a `pc` past 0xFFE goes to 0x200. -/
def State.withFetchWord (s : State) (nbits w : Nat) : State :=
  let pc := if s.canFetch then s.pc else 0x0200
  let cause := if s.run = .halted then Cause.none else s.cause
  let stops := if s.stopAsserted then [] else s.ports.stops
  { s with
    pc := pc
    run := .running
    cause := cause
    mem := s.mem.writeAll pc.toNat (bytesOfWord (tableWord nbits w))
    ports := { s.ports with stops := stops } }

end Sys2Proof.Machine
end

