-- ==== Sys2Proof/Safety.lean ====
section
/-! DEFINITION. The terms claims are made in: how a run ends, what holds at every tick boundary, completed ticks, and
which terminal event a tick must end in. -/

namespace Sys2Proof.Machine

/-! ## How a run ends (spec/40_cycle.md rule R102, spec/00_scope.md rule R16) -/

/-- A fault: every terminal event but the zero-word halt and the external stop. -/
def Cause.isFault : Cause → Bool
  | .none => false
  | .haltZero => false
  | .externalStop => false
  | .unknownOpcode => true
  | .fetchBounds => true
  | .stackOverflow => true
  | .stackUnderflow => true
  | .spriteXRange => true
  | .spriteRowRange => true
  | .spriteMemBounds => true

/-- The run is over and ended well. -/
def State.endedWell (s : State) : Prop := s.run = .halted ∧ s.cause.isFault = false

/-- The next `n` ticks, or as many as there are, end in no fault. -/
def State.safeFor (n : Nat) (s : State) : Prop :=
  ∀ k ≤ n, ∀ t, Host.Core.run Sys2Proof.core k s = .next t → t.cause.isFault = false

/-! ## Tick boundaries -/

/-- What holds at every tick boundary of every run: the invariants of spec/10_state.md rule R42, the bound of `pc` of
rule R27, the canonical form of memory, and the last frame of spec/40_cycle.md rule R102. -/
structure State.Inv (s : State) : Prop where
  /-- `I ≤ 0xFFF` (R23). -/
  index : s.I.toNat ≤ 0xFFF
  /-- Every slot from `sp` up holds 0 (R30). -/
  freeSlots : ∀ k, (hk : k < 16) → s.sp.toNat ≤ k → s.stack[k] = 0
  /-- Every slot holds an address a CALL can be fetched from, or 0 (R30, R42). -/
  slots : ∀ k, (hk : k < 16) → s.stack[k].toNat ≤ 0xFFE
  /-- `pc` never passes 0x1002 (R27). -/
  pcBound : s.pc.toNat ≤ 0x1002
  /-- `redraw` is 0 while the machine runs (R35). -/
  noRedraw : s.run = .running → s.redraw = false
  /-- `cause` is None exactly while the machine runs (R37). -/
  causeNone : s.cause = .none ↔ s.run = .running
  /-- Memory is in its canonical form. -/
  memory : s.mem.wf = true
  /-- The framebuffer is the last delivered frame, or dark if there is none (R102). -/
  shown : s.fb = s.ports.frames.headD Frame.dark

/-- A completed tick: it executed one instruction and ended in no terminal event (spec/40_cycle.md rule R99). -/
def Completes (s t : State) : Prop := step s = .next t ∧ t.run = .running

/-- `n` completed ticks in a row, each from a state that meets `ok`. -/
inductive Ticks (ok : State → Prop) : Nat → State → State → Prop where
  | none (s : State) : Ticks ok 0 s s
  | more {n : Nat} {s t u : State} : ok s → Completes s t → Ticks ok n t u → Ticks ok (n + 1) s u

/-- The machine runs, no stop is requested, and `pc` is inside memory: the tick fetches (R92, R94). -/
def State.fetches (s : State) : Prop := s.run = .running ∧ s.stopAsserted = false ∧ s.pc.toNat ≤ 0xFFE

/-- The tick executes instruction `i`. -/
def State.runs (s : State) (i : Instr) : Prop := s.fetches ∧ decodeWord s.fetchWord = some i

/-- CLS and DRW, the two instructions that set `redraw` (R98). -/
def isDisplay : Instr → Bool
  | .cls => true
  | .drw _ _ _ => true
  | .halt => false
  | .ret => false
  | .jp _ => false
  | .call _ => false
  | .sei _ _ => false
  | .snei _ _ => false
  | .ser _ _ => false
  | .ldi _ _ => false
  | .addi _ _ => false
  | .ldx _ => false
  | .rnd _ _ => false
  | .lddt _ => false
  | .ldst _ => false

/-! ## Frames: parts of the state two states agree on -/

/-- The general registers and `I`. -/
def SameRegs (s t : State) : Prop := t.x = s.x ∧ t.I = s.I

/-- The call stack. -/
def SameStack (s t : State) : Prop := t.sp = s.sp ∧ t.stack = s.stack

/-- Both timers. -/
def SameTimers (s t : State) : Prop := t.dt = s.dt ∧ t.st = s.st

/-- The framebuffer and the redraw flag. -/
def SameDisplay (s t : State) : Prop := t.fb = s.fb ∧ t.redraw = s.redraw

/-- The run state and its cause. -/
def SameStatus (s t : State) : Prop := t.run = s.run ∧ t.cause = s.cause

/-- Every byte of memory. -/
def SameMemory (s t : State) : Prop := ∀ a, t.mem.read a = s.mem.read a

/-- The instruction register and the interfaces. -/
def SamePorts (s t : State) : Prop := t.ir = s.ir ∧ t.ports = s.ports

/-! ## Terminal events in their order (spec/60_exceptions.md rules R181, R189) -/

/-- The sprite fits: what a DRW needs to draw (spec/43_display.md rules R152, R157). -/
def State.fits (s : State) (x y : RegIdx) (n : Nibble) : Prop :=
  n = 0 ∨ ((s.readX x).toNat ≤ 56 ∧ (s.readX y).toNat + n.toNat ≤ 32 ∧ s.I.toNat + n.toNat ≤ 4096)

/-- The terminal event of an instruction that is executed, `none` if it has none: the last item of R189. -/
def State.instrCause (s : State) : Instr → Cause
  | .halt => .haltZero
  | .ret => if s.sp.toNat = 0 then .stackUnderflow else .none
  | .call _ => if s.sp.toNat = 15 then .stackOverflow else .none
  | .drw x y n =>
    if 1 ≤ n.toNat ∧ 56 < (s.readX x).toNat then .spriteXRange
    else if 1 ≤ n.toNat ∧ 32 < (s.readX y).toNat + n.toNat then .spriteRowRange
    else if 1 ≤ n.toNat ∧ 4096 < s.I.toNat + n.toNat then .spriteMemBounds
    else .none
  | .cls => .none
  | .jp _ => .none
  | .sei _ _ => .none
  | .snei _ _ => .none
  | .ser _ _ => .none
  | .ldi _ _ => .none
  | .addi _ _ => .none
  | .ldx _ => .none
  | .rnd _ _ => .none
  | .lddt _ => .none
  | .ldst _ => .none

/-- The terminal event of a tick: the first that applies in the order of R189. -/
def State.tickCause (s : State) : Cause :=
  if s.stopAsserted then .externalStop
  else if 0xFFE < s.pc.toNat then .fetchBounds
  else match decodeWord s.fetchWord with
    | none => .unknownOpcode
    | some i => s.instrCause i

end Sys2Proof.Machine
end

