-- ==== Sys2Proof/Certificates/Slice0/Obligations.lean ====
section
/-! DEFINITION. The statements for the provers, one `def Obligations.<Name> : Prop` each. Rule numbers are those of
spec/. "The spec's own decision D<n>" is a choice of spec/92_eei_decisions.md; "log entry <n>" is a choice of this
model (notes/assumptions/). -/

open Sys2Proof Sys2Proof.Machine

/-! ## Encoding (spec/30_encoding.md) -/

/-- Words of spec/95_test_vectors.md V1 and what they decode as. -/
def Obligations.SampleWordsDecodeAsTabled : Prop :=
  decodeWord 0x0000 = some .halt ∧ decodeWord 0x00E0 = some .cls ∧ decodeWord 0x00EE = some .ret ∧
  decodeWord 0x1FFF = some (.jp 0xFFF) ∧ decodeWord 0x2ABC = some (.call 0xABC) ∧
  decodeWord 0x3A22 = some (.sei 10 0x22) ∧ decodeWord 0x4F00 = some (.snei 15 0x00) ∧
  decodeWord 0x5AB0 = some (.ser 10 11) ∧ decodeWord 0x5AB1 = none ∧ decodeWord 0x6F00 = some (.ldi 15 0x00) ∧
  decodeWord 0x7001 = some (.addi 0 0x01) ∧ decodeWord 0xAFFF = some (.ldx 0xFFF) ∧
  decodeWord 0xC0FF = some (.rnd 0 0xFF) ∧ decodeWord 0xDABF = some (.drw 10 11 15) ∧
  decodeWord 0xF115 = some (.lddt 1) ∧ decodeWord 0xFF18 = some (.ldst 15) ∧ decodeWord 0x0120 = none ∧
  decodeWord 0x8120 = none ∧ decodeWord 0xF016 = none

/-- Decoding the word of any instruction, at every operand value, gives the instruction back. -/
def Obligations.DecodeOfEncodeIsTheInstruction : Prop :=
  ∀ i : Instr, decodeWord (encode i) = some i ∧ ∀ rest, decode (encodeBytes i ++ rest) = .ok (i, rest)

/-- Every word that decodes is the word of what it decodes as: each word has one meaning. -/
def Obligations.EncodeOfDecodeIsTheWord : Prop :=
  ∀ (w : Word) (i : Instr), decodeWord w = some i → encode i = w

/-- Totality and disjointness: every word either is claimed by exactly one row of the opcode map and decodes as that
row's instruction, or is claimed by no row and is Unknown. -/
def Obligations.EveryWordHasOneRowOrIsUnknown : Prop :=
  ∀ w : Word,
    (∃ i r, decodeWord w = some i ∧ matchingRows w = [r] ∧ r.mnemonic = i.mnemonic) ∨
    (decodeWord w = none ∧ matchingRows w = [] ∧ Word.legal w = false)

/-- The fields of rule R71, their overlaps, and the two bytes of a word in memory. -/
def Obligations.FieldsAreTheTabledBits : Prop :=
  ∀ w : Word,
    (fieldOp w).toNat = w.toNat / 4096 ∧ (fieldX w).toNat = w.toNat / 256 % 16 ∧
    (fieldY w).toNat = w.toNat / 16 % 16 ∧ (fieldN w).toNat = w.toNat % 16 ∧
    (fieldNN w).toNat = w.toNat % 256 ∧ (fieldNNN w).toNat = w.toNat % 4096 ∧
    (fieldNN w).toNat = 16 * (fieldY w).toNat + (fieldN w).toNat ∧
    (fieldNNN w).toNat = 256 * (fieldX w).toNat + 16 * (fieldY w).toNat + (fieldN w).toNat ∧
    ∃ hi lo, bytesOfWord w = [hi, lo] ∧ hi.toNat = 16 * (fieldOp w).toNat + (fieldX w).toNat ∧ lo = fieldNN w ∧
      wordOfBytes hi lo = w

/-- The illegal words, exhaustively (the table of R78), and that a tick that fetches one ends in UnknownOpcode. -/
def Obligations.IllegalWordsAreExactlyTheTabledOnes : Prop :=
  (∀ w : Word, decodeWord w = none ↔
    (0x0001 ≤ w.toNat ∧ w.toNat ≤ 0x0FFF ∧ w.toNat ≠ 0x00E0 ∧ w.toNat ≠ 0x00EE) ∨
    (0x5000 ≤ w.toNat ∧ w.toNat ≤ 0x5FFF ∧ w.toNat % 16 ≠ 0) ∨
    (0x8000 ≤ w.toNat ∧ w.toNat ≤ 0x8FFF) ∨ (0x9000 ≤ w.toNat ∧ w.toNat ≤ 0x9FFF) ∨
    (0xB000 ≤ w.toNat ∧ w.toNat ≤ 0xBFFF) ∨ (0xE000 ≤ w.toNat ∧ w.toNat ≤ 0xEFFF) ∨
    (0xF000 ≤ w.toNat ∧ w.toNat % 256 ≠ 0x15 ∧ w.toNat % 256 ≠ 0x18)) ∧
  (∀ s : State, s.fetches → decodeWord s.fetchWord = none →
    ∃ t, step s = .next t ∧ t.run = .halted ∧ t.cause = .unknownOpcode)

/-! ## The tick (spec/40_cycle.md) -/

/-- Fetch is big-endian (R53), and after a load the first fetch gives the first two bytes of the image. -/
def Obligations.FetchIsBigEndian : Prop :=
  (∀ s : State, s.fetchWord =
    ((s.mem.read s.pc.toNat).setWidth 16 <<< 8) ||| (s.mem.read (s.pc.toNat + 1)).setWidth 16) ∧
  (∀ (b0 b1 : Byte) (rest : List Byte) (s : State), launch (b0 :: b1 :: rest) = .ok s →
    s.fetchWord.toNat = 256 * b0.toNat + b1.toNat) ∧
  (∀ s : State, launch [0x12, 0x34] = .ok s → s.fetchWord = 0x1234)

/-- A tick that fetches puts the word in `ir` and, with the debug toggle on, on the trace output (R93). -/
def Obligations.FetchWritesTheInstructionRegister : Prop :=
  ∀ s : State,
    s.fetch = { s with ir := s.fetchWord, ports := { s.ports with
                         trace := if s.ports.debug then s.fetchWord :: s.ports.trace else s.ports.trace } } ∧
    (s.fetches → ∃ t, step s = .next t ∧ t.ir = s.mem.readWord s.pc.toNat ∧
      t.ports.trace = if s.ports.debug then s.fetchWord :: s.ports.trace else s.ports.trace)

/-- A step is `exec` of the decoded instruction in the fetched state, then, unless that ended the run, frame delivery
and timer decrement. The stop sample of the tick is used up (log entry 2). -/
def Obligations.StepRunsTheDecodedInstruction : Prop :=
  ∀ (s : State) (i : Instr), s.runs i →
    step s = match exec i { s with ir := s.fetchWord, ports := { s.ports with
                 stops := s.ports.stops.tail,
                 trace := if s.ports.debug then s.fetchWord :: s.ports.trace else s.ports.trace } } with
      | .next u => .next (if u.run = .halted then u else { u with
          redraw := false
          ports := { u.ports with frames := if u.redraw then u.fb :: u.ports.frames else u.ports.frames }
          dt := if u.dt = 0 then 0 else u.dt - 1
          st := if u.st = 0 then 0 else u.st - 1 })
      | .fault f => .fault f
      | .refused r => .refused r

/-- A HALTED machine has no tick (R91); the fault's name is the model's (log entry 1). -/
def Obligations.HaltedMachineHasNoTick : Prop :=
  ∀ s : State, s.run = .halted → step s = .fault .machineHalted

/-- The tick is total: from every RUNNING state there is a next state (R101). -/
def Obligations.EveryRunningStateHasATick : Prop :=
  ∀ s : State, s.run = .running → ∃ t, step s = .next t

/-- An asserted stop request ends the run before the fetch and changes nothing else (R92; the spec's own decision D17;
log entry 2). -/
def Obligations.StopRequestEndsTheRun : Prop :=
  ∀ s : State, s.run = .running → s.ports.stops.head? = some true →
    step s = .next { s with run := .halted, cause := .externalStop }

/-- A tick that begins with `pc > 0xFFE` ends in FetchBounds: nothing is read, `ir` and `pc` keep their values (R94;
the spec's own decision D4). Only the stop sample is used up (log entry 2). -/
def Obligations.FetchPastMemoryEndsTheRun : Prop :=
  ∀ s : State, s.run = .running → s.stopAsserted = false → 0xFFE < s.pc.toNat →
    step s = .next { s with run := .halted, cause := .fetchBounds,
                            ports := { s.ports with stops := s.ports.stops.tail } }

/-- Step 3 (R96): an unknown word ends the run with the word in `ir` and its address in `pc`, with no frame and no timer
step, and no tick follows; for any other word the instruction's own rule runs and the tick goes on from what it leaves.
The zero word passes the decoder too, as HALT (log entry 12). Either way the stop sample of the tick is used up (log
entry 2). -/
def Obligations.UnknownWordEndsTheRun : Prop :=
  (∀ s : State, s.fetches → decodeWord s.fetchWord = none →
    step s = .next { s with run := .halted, cause := .unknownOpcode, ir := s.fetchWord, ports := { s.ports with
      stops := s.ports.stops.tail,
      trace := if s.ports.debug then s.fetchWord :: s.ports.trace else s.ports.trace } }) ∧
  (∀ (s : State) (i : Instr), s.fetches → decodeWord s.fetchWord = some i →
    ∃ u, exec i s.fetched = .next u ∧ step s = .next u.finishTick) ∧
  (∀ s t u : State, s.fetches → decodeWord s.fetchWord = none → step s = .next t → step t ≠ .next u)

/-- Entry of a terminal event (R184): HALTED, the cause's code, and nothing else; `ir` holds the word unless no fetch
was made; no frame is delivered and no timer steps. Which cause it is follows the order of R189, which inside DRW is the
spec's own decision D12; that a faulting tick leaves everything else as it was is the spec's own decision D13 (log entry
18). -/
def Obligations.TerminalEventWritesOnlyRunAndCause : Prop :=
  (∀ (c : Cause) (s : State), s.raise c = { s with run := .halted, cause := c }) ∧
  (∀ s t : State, step s = .next t → t.run = .halted →
    t.cause = s.tickCause ∧ t.cause.code ≠ 0 ∧
    t.x = s.x ∧ t.I = s.I ∧ t.pc = s.pc ∧ t.sp = s.sp ∧ t.stack = s.stack ∧ t.dt = s.dt ∧ t.st = s.st ∧
    t.fb = s.fb ∧ t.redraw = s.redraw ∧ t.mem = s.mem ∧ t.ports.frames = s.ports.frames ∧
    t.ports.draws = s.ports.draws ∧ t.ports.drawCount = s.ports.drawCount ∧
    (s.fetches → t.ir = s.fetchWord) ∧ (¬ s.fetches → t.ir = s.ir))

/-- At most one terminal event a tick, the first that applies in the order of R189 (the order inside DRW is the spec's
own decision D12); a tick with none goes on. -/
def Obligations.TerminalEventIsTheFirstThatApplies : Prop :=
  ∀ s t : State, step s = .next t →
    (t.run = .halted ↔ s.tickCause ≠ .none) ∧ (t.run = .halted → t.cause = s.tickCause) ∧
    (t.run = .running → t.cause = s.cause)

/-- The codes of R181 (the spec's own decision D14), and that no two causes share one. -/
def Obligations.CauseCodesAreTheTabledOnes : Prop :=
  Cause.code .none = 0 ∧ Cause.code .haltZero = 1 ∧ Cause.code .externalStop = 2 ∧ Cause.code .unknownOpcode = 3 ∧
  Cause.code .fetchBounds = 4 ∧ Cause.code .stackOverflow = 5 ∧ Cause.code .stackUnderflow = 6 ∧
  Cause.code .spriteXRange = 7 ∧ Cause.code .spriteRowRange = 8 ∧ Cause.code .spriteMemBounds = 9 ∧
  ∀ c d : Cause, c.code = d.code → c = d

/-- A frame is delivered exactly on the completed ticks of CLS and DRW, one a tick, with the framebuffer as the
instruction left it (R98). The premise on `redraw` holds at every tick boundary (EveryTickKeepsTheInvariants). -/
def Obligations.FrameDeliveredExactlyOnDisplayTicks : Prop :=
  ∀ (s t : State) (i : Instr), s.runs i → s.redraw = false → Completes s t →
    t.redraw = false ∧ t.ports.frames = (if isDisplay i then t.fb :: s.ports.frames else s.ports.frames) ∧
    (isDisplay i = false → t.fb = s.fb)

/-- Both timers step by 1 down to 0 on every completed tick, the tick that loads one included, and on no other tick,
whatever terminal event ended it (R99; that the loading tick counts is the spec's own decision D19). -/
def Obligations.TimersStepOnEveryCompletedTick : Prop :=
  (∀ s t : State, step s = .next t → t.run = .halted → t.dt = s.dt ∧ t.st = s.st) ∧
  (∀ (s t : State) (i : Instr), s.runs i → Completes s t →
    ((∀ x, i ≠ .lddt x) → t.dt.toNat = s.dt.toNat - 1) ∧
    (∀ x, i = .lddt x → t.dt.toNat = (s.readX x).toNat - 1) ∧
    ((∀ x, i ≠ .ldst x) → t.st.toNat = s.st.toNat - 1) ∧
    (∀ x, i = .ldst x → t.st.toNat = (s.readX x).toNat - 1))

/-- Nothing reads a timer: two states that differ only in the timers step to states that differ only in them (R31,
R172). -/
def Obligations.TimersAreNeverRead : Prop :=
  ∀ (s t : State) (d e : Byte), step s = .next t →
    ∃ t', step { s with dt := d, st := e } = .next t' ∧ { t' with dt := t.dt, st := t.st } = t

/-- Nothing reads the keys or the exit flag: whatever they are, the machine's next state is the same (R198; the spec's
own decision D25; log entry 8). -/
def Obligations.KeysAreNeverRead : Prop :=
  ∀ (s t : State) (k : BitVec 16) (b : Bool), step s = .next t →
    step { s with ports := { s.ports with keys := k, exitFlag := b } } =
      .next { t with ports := { t.ports with keys := k, exitFlag := b } }

/-- The debug toggle alters nothing but the trace output (R202; the spec's own decision D23; log entry 6). -/
def Obligations.DebugToggleAltersOnlyTheTrace : Prop :=
  ∀ (s t : State) (b : Bool), step s = .next t →
    ∃ t', step { s with ports := { s.ports with debug := b } } = .next t' ∧
      { t' with ports := { t'.ports with debug := t.ports.debug, trace := t.ports.trace } } = t ∧
      (s.fetches → t'.ports.trace = if b then s.fetchWord :: s.ports.trace else s.ports.trace)

/-! ## Who writes what (spec/10_state.md) -/

/-- How each instruction changes `pc` (R25), CALL after saving the old one; a tick that ends in a terminal event leaves
it alone. -/
def Obligations.PcAfterEachInstruction : Prop :=
  (∀ s t : State, step s = .next t → t.run = .halted → t.pc = s.pc) ∧
  (∀ (s t : State) (i : Instr), s.runs i → Completes s t →
    t.pc = match i with
      | .halt => s.pc
      | .ret => s.readSlot (s.sp - 1)
      | .jp nnn => nnn.setWidth 16
      | .call nnn => nnn.setWidth 16
      | .sei x nn => if s.readX x = nn then s.pc + 4 else s.pc + 2
      | .snei x nn => if s.readX x ≠ nn then s.pc + 4 else s.pc + 2
      | .ser x y => if s.readX x = s.readX y then s.pc + 4 else s.pc + 2
      | .cls => s.pc + 2
      | .ldi _ _ => s.pc + 2
      | .addi _ _ => s.pc + 2
      | .ldx _ => s.pc + 2
      | .rnd _ _ => s.pc + 2
      | .drw _ _ _ => s.pc + 2
      | .lddt _ => s.pc + 2
      | .ldst _ => s.pc + 2) ∧
  (∀ (s t : State) (nnn : Addr), s.runs (.call nnn) → Completes s t → t.readSlot s.sp = s.pc)

/-- Only LDI, ADDI and RND write a general register, and only the one their X names, `x[15]` included (R22). -/
def Obligations.RegistersAreWrittenOnlyByTheirInstructions : Prop :=
  ∀ (s t : State) (k : Nat) (hk : k < 16), step s = .next t → t.x[k] ≠ s.x[k] →
    ∃ (x : RegIdx) (nn : Byte), x.toNat = k ∧ (s.runs (.ldi x nn) ∨ s.runs (.addi x nn) ∨ s.runs (.rnd x nn))

/-- Only LDX writes `I`, only CALL and RET write the stack, only CLS and DRW write the framebuffer, only RND consumes a
draw (R23, R28, R34, R134). -/
def Obligations.SpecialStateIsWrittenOnlyByItsInstructions : Prop :=
  ∀ s t : State, step s = .next t →
    (t.I ≠ s.I → ∃ nnn, s.runs (.ldx nnn)) ∧
    (t.sp ≠ s.sp ∨ t.stack ≠ s.stack → s.runs .ret ∨ ∃ nnn, s.runs (.call nnn)) ∧
    (t.fb ≠ s.fb → s.runs .cls ∨ ∃ x y n, s.runs (.drw x y n)) ∧
    (t.ports.draws ≠ s.ports.draws ∨ t.ports.drawCount ≠ s.ports.drawCount → ∃ x nn, s.runs (.rnd x nn))

/-- No tick writes memory: every byte reads as before (R57). -/
def Obligations.MemoryIsNeverWritten : Prop :=
  ∀ s t : State, step s = .next t → t.mem = s.mem ∧ ∀ a, t.mem.read a = s.mem.read a

/-! ## HALT (spec/40_cycle.md) -/

/-- HALT: the word 0x0000 and no other; the terminal event HaltZero; the tick writes `ir`, `run`, `cause` and nothing
else of the machine (R95; that the halting fetch writes `ir` is the spec's own decision D15). The stop sample of the
tick is used up (log entry 2). -/
def Obligations.HaltEndsTheRun : Prop :=
  (∀ w : Word, decodeWord w = some .halt ↔ w = 0x0000) ∧
  (∀ s : State, exec .halt s = .next { s with run := .halted, cause := .haltZero }) ∧
  (∀ s : State, s.fetches → s.fetchWord = 0x0000 →
    step s = .next { s with run := .halted, cause := .haltZero, ir := 0x0000, ports := { s.ports with
      stops := s.ports.stops.tail, trace := if s.ports.debug then 0x0000 :: s.ports.trace else s.ports.trace } })

/-! ## Control flow (spec/41_control_flow.md) -/

/-- RET (R111). With `sp = 0` it raises StackUnderflow (the spec's own decision D8). -/
def Obligations.RetPopsThePc : Prop :=
  (∀ w : Word, decodeWord w = some .ret ↔ w = 0x00EE) ∧
  (∀ s : State, s.sp ≠ 0 → ∃ stk : Vector Word 16,
    exec .ret s = .next { s with sp := s.sp - 1, pc := s.readSlot (s.sp - 1), stack := stk } ∧
    (s.sp - 1).toNat = s.sp.toNat - 1 ∧
    ∀ k, (hk : k < 16) → stk[k] = if k = s.sp.toNat - 1 then 0 else s.stack[k]) ∧
  (∀ s : State, s.sp = 0 → exec .ret s = .next { s with run := .halted, cause := .stackUnderflow })

/-- JP (R112): the target, the jump to itself, and what the next tick does after a jump to the zeroed low region or to
0xFFF. -/
def Obligations.JpJumps : Prop :=
  (∀ (w : Word) (nnn : Addr), decodeWord w = some (.jp nnn) ↔ w.toNat = 0x1000 + nnn.toNat) ∧
  (∀ (nnn : Addr) (s : State), exec (.jp nnn) s = .next { s with pc := nnn.setWidth 16 } ∧
    (nnn.setWidth 16 : Word).toNat = nnn.toNat) ∧
  (∀ (nnn : Addr) (s : State), nnn.toNat = s.pc.toNat → exec (.jp nnn) s = .next s) ∧
  (∀ (nnn : Addr) (s t : State), s.runs (.jp nnn) → step s = .next t → t.stopAsserted = false →
    (nnn.toNat ≤ 0x1FE → (∀ a ≤ 0x1FF, s.mem.read a = 0) →
      ∃ u, step t = .next u ∧ u.run = .halted ∧ u.cause = .haltZero) ∧
    (nnn.toNat = 0xFFF → ∃ u, step t = .next u ∧ u.run = .halted ∧ u.cause = .fetchBounds))

/-- CALL (R113): the pushed value is the address of the CALL itself. With `sp = 15` it raises StackOverflow (the spec's
own decision D7). -/
def Obligations.CallPushesItsOwnAddress : Prop :=
  (∀ (w : Word) (nnn : Addr), decodeWord w = some (.call nnn) ↔ w.toNat = 0x2000 + nnn.toNat) ∧
  (∀ (nnn : Addr) (s : State), s.sp ≠ 15 → ∃ stk : Vector Word 16,
    exec (.call nnn) s = .next { s with sp := s.sp + 1, pc := nnn.setWidth 16, stack := stk } ∧
    (s.sp + 1).toNat = s.sp.toNat + 1 ∧
    ∀ k, (hk : k < 16) → stk[k] = if k = s.sp.toNat then s.pc else s.stack[k]) ∧
  (∀ (nnn : Addr) (s : State), s.sp = 15 →
    exec (.call nnn) s = .next { s with run := .halted, cause := .stackOverflow })

/-- A RET right after a CALL restores `pc`, `sp` and the whole stack to what they were at the CALL, so the CALL is the
next instruction again (R111, R113, R227). The premise on the slot holds at every tick boundary
(EveryTickKeepsTheInvariants). -/
def Obligations.RetAfterCallReturnsToTheCall : Prop :=
  ∀ (nnn : Addr) (s t : State), s.sp ≠ 15 → s.readSlot s.sp = 0 → exec (.call nnn) s = .next t →
    exec .ret t = .next { t with sp := s.sp, pc := s.pc, stack := s.stack }

/-- SEI (R114), all of it: the word, the skip, and what a skip near the top of memory does to the next tick. -/
def Obligations.SeiSkipsOnEqual : Prop :=
  (∀ (w : Word) (x : RegIdx) (nn : Byte),
    decodeWord w = some (.sei x nn) ↔ w.toNat = 0x3000 + 256 * x.toNat + nn.toNat) ∧
  (∀ (x : RegIdx) (nn : Byte) (s : State),
    exec (.sei x nn) s = .next { s with pc := if s.readX x = nn then s.pc + 4 else s.pc + 2 }) ∧
  (∀ (x : RegIdx) (nn : Byte) (s t : State), s.runs (.sei x nn) → s.readX x = nn → 0xFFC ≤ s.pc.toNat →
    step s = .next t → t.stopAsserted = false →
    ∃ u, step t = .next u ∧ u.run = .halted ∧ u.cause = .fetchBounds)

/-- SNEI (R115): the condition negated, and exactly one of SEI and SNEI skips. -/
def Obligations.SneiSkipsOnDifferent : Prop :=
  (∀ (w : Word) (x : RegIdx) (nn : Byte),
    decodeWord w = some (.snei x nn) ↔ w.toNat = 0x4000 + 256 * x.toNat + nn.toNat) ∧
  (∀ (x : RegIdx) (nn : Byte) (s : State),
    exec (.snei x nn) s = .next { s with pc := if s.readX x ≠ nn then s.pc + 4 else s.pc + 2 }) ∧
  (∀ (x : RegIdx) (nn : Byte) (s : State),
    (exec (.sei x nn) s = .next { s with pc := s.pc + 4 } ∧ exec (.snei x nn) s = .next { s with pc := s.pc + 2 }) ∨
    (exec (.sei x nn) s = .next { s with pc := s.pc + 2 } ∧ exec (.snei x nn) s = .next { s with pc := s.pc + 4 }))

/-- SER (R116): the low nibble must be 0, with X = Y it always skips, and there is no skip on different registers. -/
def Obligations.SerSkipsOnEqualRegisters : Prop :=
  (∀ (w : Word) (x y : RegIdx),
    decodeWord w = some (.ser x y) ↔ w.toNat = 0x5000 + 256 * x.toNat + 16 * y.toNat) ∧
  (∀ w : Word, (w.toNat / 4096 = 5 ∧ w.toNat % 16 ≠ 0) ∨ w.toNat / 4096 = 9 → decodeWord w = none) ∧
  (∀ (x y : RegIdx) (s : State),
    exec (.ser x y) s = .next { s with pc := if s.readX x = s.readX y then s.pc + 4 else s.pc + 2 }) ∧
  (∀ (x : RegIdx) (s : State), exec (.ser x x) s = .next { s with pc := s.pc + 4 })

/-! ## Register instructions (spec/42_register_ops.md) -/

/-- LDI (R131). -/
def Obligations.LdiLoadsTheImmediate : Prop :=
  (∀ (w : Word) (x : RegIdx) (nn : Byte),
    decodeWord w = some (.ldi x nn) ↔ w.toNat = 0x6000 + 256 * x.toNat + nn.toNat) ∧
  (∀ (x : RegIdx) (nn : Byte) (s : State),
    exec (.ldi x nn) s = .next { s with x := s.x.set x.toNat nn x.isLt, pc := s.pc + 2 })

/-- ADDI (R132): the sum modulo 256, no flag; NN = 0 changes no register and NN = 0xFF subtracts 1. -/
def Obligations.AddiAddsModulo256 : Prop :=
  (∀ (w : Word) (x : RegIdx) (nn : Byte),
    decodeWord w = some (.addi x nn) ↔ w.toNat = 0x7000 + 256 * x.toNat + nn.toNat) ∧
  (∀ (x : RegIdx) (nn : Byte) (s : State), ∃ v : Byte,
    exec (.addi x nn) s = .next { s with x := s.x.set x.toNat v x.isLt, pc := s.pc + 2 } ∧
    v.toNat = ((s.readX x).toNat + nn.toNat) % 256) ∧
  (∀ (x : RegIdx) (s : State), exec (.addi x 0) s = .next { s with pc := s.pc + 2 }) ∧
  (∀ (x : RegIdx) (s : State),
    exec (.addi x 0xFF) s = .next { s with x := s.x.set x.toNat (s.readX x - 1) x.isLt, pc := s.pc + 2 })

/-- LDX (R133): the 12-bit address zero-extended, so bits 15:12 of `I` are 0. -/
def Obligations.LdxLoadsTheIndexRegister : Prop :=
  (∀ (w : Word) (nnn : Addr), decodeWord w = some (.ldx nnn) ↔ w.toNat = 0xA000 + nnn.toNat) ∧
  (∀ (nnn : Addr) (s : State), exec (.ldx nnn) s = .next { s with I := nnn.setWidth 16, pc := s.pc + 2 } ∧
    (nnn.setWidth 16 : Word).toNat = nnn.toNat)

/-- RND (R134): NN AND one draw in 0 to 254, the environment's next ready draw or else a free one (log entry 3; the
spec's own decision D16). The statement holds for every draw; the result is a submask of NN and never 0xFF, and every
other submask is possible. -/
def Obligations.RndMasksOneDraw : Prop :=
  (∀ (w : Word) (x : RegIdx) (nn : Byte),
    decodeWord w = some (.rnd x nn) ↔ w.toNat = 0xC000 + 256 * x.toNat + nn.toNat) ∧
  (∀ (x : RegIdx) (nn : Byte) (s : State), ∃ r ≤ 254,
    exec (.rnd x nn) s = .next { s with
      x := s.x.set x.toNat (nn &&& BitVec.ofNat 8 r) x.isLt
      pc := s.pc + 2
      ports := { s.ports with draws := s.ports.draws.tail, drawCount := s.ports.drawCount + 1 } } ∧
    ∀ d, s.ports.draws.head? = some d → r = d.val) ∧
  (∀ (x : RegIdx) (nn : Byte) (s t : State), exec (.rnd x nn) s = .next t →
    t.readX x &&& ~~~nn = 0 ∧ t.readX x ≠ 0xFF) ∧
  (∀ (x : RegIdx) (nn m : Byte) (s : State), m &&& ~~~nn = 0 → m ≠ 0xFF →
    ∃ (d : Draw) (t : State), exec (.rnd x nn) { s with ports := { s.ports with draws := [d] } } = .next t ∧
      t.readX x = m)

/-! ## Display (spec/43_display.md) -/

/-- CLS (R150): all rows dark and a redraw requested; its tick delivers the dark frame; nothing else darkens a pixel. -/
def Obligations.ClsClearsTheFramebuffer : Prop :=
  (∀ w : Word, decodeWord w = some .cls ↔ w = 0x00E0) ∧
  (∀ s : State, ∃ f : Frame, exec .cls s = .next { s with fb := f, redraw := true, pc := s.pc + 2 } ∧
    ∀ r, (hr : r < 32) → f[r] = 0) ∧
  (∀ s : State, s.runs .cls → ∃ t, step s = .next t ∧ t.run = .running ∧ (∀ r, (hr : r < 32) → t.fb[r] = 0) ∧
    t.ports.frames = t.fb :: s.ports.frames ∧ t.redraw = false ∧ t.pc = s.pc + 2) ∧
  (∀ (s t : State) (c r : Nat), step s = .next t → Frame.pixel s.fb c r = true → Frame.pixel t.fb c r = false →
    s.runs .cls)

/-- DRW of a sprite that fits (R151): each sprite byte is ORed into its row at `56 − x[X]`, every other row is as
before, `redraw` is set, `pc` advances, and nothing else changes. -/
def Obligations.DrwOrsTheSpriteIntoItsRows : Prop :=
  (∀ (w : Word) (x y : RegIdx) (n : Nibble),
    decodeWord w = some (.drw x y n) ↔ w.toNat = 0xD000 + 256 * x.toNat + 16 * y.toNat + n.toNat) ∧
  (∀ (x y : RegIdx) (n : Nibble) (s : State), s.fits x y n → ∃ f : Frame,
    exec (.drw x y n) s = .next { s with fb := f, redraw := true, pc := s.pc + 2 } ∧
    ∀ r, (hr : r < 32) → f[r] =
      if (s.readX y).toNat ≤ r ∧ r < (s.readX y).toNat + n.toNat then
        s.fb[r] ||| ((s.mem.read (s.I.toNat + (r - (s.readX y).toNat))).setWidth 64 <<< (56 - (s.readX x).toNat))
      else s.fb[r])

/-- The same in pixels (R154): bit `7 − k` of the byte of sprite row `i` lands on column `x[X] + k` of row
`x[Y] + i`. -/
def Obligations.DrwSetsTheSpritePixels : Prop :=
  ∀ (x y : RegIdx) (n : Nibble) (s t : State), s.fits x y n → exec (.drw x y n) s = .next t →
    ∀ c r, c < 64 → r < 32 → Frame.pixel t.fb c r =
      (Frame.pixel s.fb c r ||
        (decide ((s.readX x).toNat ≤ c ∧ c < (s.readX x).toNat + 8 ∧
                 (s.readX y).toNat ≤ r ∧ r < (s.readX y).toNat + n.toNat) &&
          (s.mem.read (s.I.toNat + (r - (s.readX y).toNat))).getLsbD (7 - (c - (s.readX x).toNat))))

/-- A DRW that does not fit raises the first of the three faults that holds and changes nothing (R152; the spec's own
decisions D9 to D12). -/
def Obligations.DrwThatDoesNotFitChangesNothing : Prop :=
  ∀ (x y : RegIdx) (n : Nibble) (s : State), 1 ≤ n.toNat →
    (56 < (s.readX x).toNat → exec (.drw x y n) s = .next { s with run := .halted, cause := .spriteXRange }) ∧
    ((s.readX x).toNat ≤ 56 → 32 < (s.readX y).toNat + n.toNat →
      exec (.drw x y n) s = .next { s with run := .halted, cause := .spriteRowRange }) ∧
    ((s.readX x).toNat ≤ 56 → (s.readX y).toNat + n.toNat ≤ 32 → 4096 < s.I.toNat + n.toNat →
      exec (.drw x y n) s = .next { s with run := .halted, cause := .spriteMemBounds })

/-- A DRW of no rows checks nothing, draws nothing, and still has the unchanged frame delivered (R157; the spec's own
decision D12). -/
def Obligations.DrwOfNoRowsOnlyRedraws : Prop :=
  (∀ (x y : RegIdx) (s : State), exec (.drw x y 0) s = .next { s with redraw := true, pc := s.pc + 2 }) ∧
  (∀ (x y : RegIdx) (s : State), s.runs (.drw x y 0) → ∃ t, step s = .next t ∧ t.fb = s.fb ∧
    t.ports.frames = s.fb :: s.ports.frames ∧ t.pc = s.pc + 2)

/-- OR, not XOR (R155): a DRW darkens nothing, a zero bit of the sprite leaves its pixel as it was, and drawing the
same sprite again at the same place changes no pixel. -/
def Obligations.DrwOnlyLightsPixels : Prop :=
  (∀ (x y : RegIdx) (n : Nibble) (s t : State) (c r : Nat), exec (.drw x y n) s = .next t →
    Frame.pixel s.fb c r = true → Frame.pixel t.fb c r = true) ∧
  (∀ (x y : RegIdx) (n : Nibble) (s t : State) (k j : Nat), exec (.drw x y n) s = .next t → k < 8 → j < n.toNat →
    (s.mem.read (s.I.toNat + j)).getLsbD (7 - k) = false →
    Frame.pixel t.fb ((s.readX x).toNat + k) ((s.readX y).toNat + j) =
      Frame.pixel s.fb ((s.readX x).toNat + k) ((s.readX y).toNat + j)) ∧
  (∀ (x y : RegIdx) (n : Nibble) (s t u : State), exec (.drw x y n) s = .next t → exec (.drw x y n) t = .next u →
    u.fb = t.fb)

/-- No collision flag (R156): DRW writes no general register, and nothing reads the framebuffer back: two states that
differ only in pixels step to states that differ only in pixels, delivered frames included. -/
def Obligations.DrawnPixelsAreNeverReadBack : Prop :=
  (∀ (x y : RegIdx) (n : Nibble) (s t : State), exec (.drw x y n) s = .next t → t.x = s.x) ∧
  (∀ (s t : State) (f : Frame), step s = .next t →
    ∃ t', step { s with fb := f } = .next t' ∧
      { t' with fb := t.fb, ports := { t'.ports with frames := t.ports.frames } } = t)

/-! ## Timers (spec/44_timers.md) -/

/-- LDDT (R170): the load, the same tick's decrement, and what is left after `m` more completed ticks: 0 after exactly
`v` ticks counting the loading one. -/
def Obligations.LddtLoadsTheDelayTimer : Prop :=
  (∀ (w : Word) (x : RegIdx), decodeWord w = some (.lddt x) ↔ w.toNat = 0xF015 + 256 * x.toNat) ∧
  (∀ (x : RegIdx) (s : State), exec (.lddt x) s = .next { s with dt := s.readX x, pc := s.pc + 2 }) ∧
  (∀ (x : RegIdx) (s : State), s.runs (.lddt x) → ∃ t, Completes s t ∧
    t.dt = (if s.readX x = 0 then 0 else s.readX x - 1) ∧
    ∀ (m : Nat) (u : State), Ticks (fun z => ∀ y, ¬ z.runs (.lddt y)) m t u →
      u.dt.toNat = (s.readX x).toNat - 1 - m)

/-- LDST (R171): as LDDT, for the sound timer; neither load touches the other timer. -/
def Obligations.LdstLoadsTheSoundTimer : Prop :=
  (∀ (w : Word) (x : RegIdx), decodeWord w = some (.ldst x) ↔ w.toNat = 0xF018 + 256 * x.toNat) ∧
  (∀ (x : RegIdx) (s : State), exec (.ldst x) s = .next { s with st := s.readX x, pc := s.pc + 2 }) ∧
  (∀ (x : RegIdx) (s t : State), exec (.lddt x) s = .next t → t.st = s.st) ∧
  (∀ (x : RegIdx) (s : State), s.runs (.ldst x) → ∃ t, Completes s t ∧
    t.st = (if s.readX x = 0 then 0 else s.readX x - 1) ∧
    ∀ (m : Nat) (u : State), Ticks (fun z => ∀ y, ¬ z.runs (.ldst y)) m t u →
      u.st.toNat = (s.readX x).toNat - 1 - m)

/-! ## Frames: what each instruction leaves unchanged -/

/-- JP, SEI, SNEI, SER change `pc` and nothing else. -/
def Obligations.FrameOfJumpsAndSkips : Prop :=
  ∀ (i : Instr) (s t : State),
    ((∃ nnn, i = .jp nnn) ∨ (∃ x nn, i = .sei x nn) ∨ (∃ x nn, i = .snei x nn) ∨ ∃ x y, i = .ser x y) →
    exec i s = .next t →
    SameRegs s t ∧ SameStack s t ∧ SameTimers s t ∧ SameDisplay s t ∧ SameStatus s t ∧ SameMemory s t ∧ SamePorts s t

/-- CALL and RET change `pc`, `sp` and one stack slot (CALL the one at `sp`, RET the one below it), or only `run` and
`cause` when they raise their stack fault (the spec's own decisions D7, D8). -/
def Obligations.FrameOfCallAndRet : Prop :=
  ∀ (i : Instr) (s t : State), ((∃ nnn, i = .call nnn) ∨ i = .ret) → exec i s = .next t →
    SameRegs s t ∧ SameTimers s t ∧ SameDisplay s t ∧ SameMemory s t ∧ SamePorts s t ∧
    (i = .ret → s.sp ≠ 0 → SameStatus s t ∧ ∀ k, (hk : k < 16) → k ≠ s.sp.toNat - 1 → t.stack[k] = s.stack[k]) ∧
    (i = .ret → s.sp = 0 → SameStack s t ∧ t.pc = s.pc) ∧
    (i ≠ .ret → s.sp ≠ 15 → SameStatus s t ∧ ∀ k, (hk : k < 16) → k ≠ s.sp.toNat → t.stack[k] = s.stack[k]) ∧
    (i ≠ .ret → s.sp = 15 → SameStack s t ∧ t.pc = s.pc)

/-- LDI, ADDI and RND change the register their X names and `pc`; RND also consumes a draw (log entry 3). -/
def Obligations.FrameOfRegisterWriters : Prop :=
  ∀ (i : Instr) (x : RegIdx) (nn : Byte) (s t : State), (i = .ldi x nn ∨ i = .addi x nn ∨ i = .rnd x nn) →
    exec i s = .next t →
    (∀ k, (hk : k < 16) → k ≠ x.toNat → t.x[k] = s.x[k]) ∧ t.I = s.I ∧
    SameStack s t ∧ SameTimers s t ∧ SameDisplay s t ∧ SameStatus s t ∧ SameMemory s t ∧ t.ir = s.ir ∧
    t.ports.stops = s.ports.stops ∧ t.ports.frames = s.ports.frames ∧ t.ports.trace = s.ports.trace ∧
    t.ports.keys = s.ports.keys ∧ t.ports.exitFlag = s.ports.exitFlag ∧ t.ports.debug = s.ports.debug ∧
    (i ≠ .rnd x nn → t.ports = s.ports)

/-- LDX changes `I` and `pc`; LDDT changes `dt` and `pc`; LDST changes `st` and `pc`. -/
def Obligations.FrameOfIndexAndTimerLoads : Prop :=
  ∀ (i : Instr) (s t : State), ((∃ nnn, i = .ldx nnn) ∨ (∃ x, i = .lddt x) ∨ ∃ x, i = .ldst x) →
    exec i s = .next t →
    t.x = s.x ∧ SameStack s t ∧ SameDisplay s t ∧ SameStatus s t ∧ SameMemory s t ∧ SamePorts s t ∧
    ((∀ nnn, i ≠ .ldx nnn) → t.I = s.I) ∧ ((∀ x, i ≠ .lddt x) → t.dt = s.dt) ∧ ((∀ x, i ≠ .ldst x) → t.st = s.st)

/-- CLS and DRW change the framebuffer, `redraw` and `pc`, a DRW only the rows it covers; a DRW that does not fit
changes only `run` and `cause`. -/
def Obligations.FrameOfDisplayInstructions : Prop :=
  ∀ (i : Instr) (s t : State), isDisplay i = true → exec i s = .next t →
    SameRegs s t ∧ SameStack s t ∧ SameTimers s t ∧ SameMemory s t ∧ SamePorts s t ∧
    (i = .cls → SameStatus s t) ∧
    (∀ x y n, i = .drw x y n →
      (s.fits x y n → SameStatus s t) ∧ (¬ s.fits x y n → SameDisplay s t ∧ t.pc = s.pc) ∧
      ∀ r, (hr : r < 32) → ¬ ((s.readX y).toNat ≤ r ∧ r < (s.readX y).toNat + n.toNat) → t.fb[r] = s.fb[r])

/-- HALT changes `run` and `cause` and nothing else, `pc` included. -/
def Obligations.FrameOfHalt : Prop :=
  ∀ s t : State, exec .halt s = .next t →
    t.pc = s.pc ∧ SameRegs s t ∧ SameStack s t ∧ SameTimers s t ∧ SameDisplay s t ∧ SameMemory s t ∧ SamePorts s t

/-- Every instruction but HALT, RET, CALL and DRW always completes: it raises nothing (R181). -/
def Obligations.MostInstructionsAlwaysComplete : Prop :=
  ∀ (i : Instr) (s : State), i ≠ .halt → i ≠ .ret → (∀ nnn, i ≠ .call nnn) → (∀ x y n, i ≠ .drw x y n) →
    ∃ t, exec i s = .next t ∧ SameStatus s t

/-! ## Reset, load, invariants (spec/70_reset_and_hazards.md, spec/10_state.md) -/

/-- The machine starts at 0x200 in RUNNING, whatever the image (R221). -/
def Obligations.EntryPointIsFixed : Prop :=
  State.reset.pc = 0x0200 ∧ State.reset.run = .running ∧
  ∀ (img : List Byte) (s : State), launch img = .ok s → s.pc = 0x0200 ∧ s.run = .running ∧
    s.fetchWord = s.mem.readWord 0x200

/-- Reset and load of an image of legal length: every field as the table of R40, memory as R222 and R226 (the reset
values of `sp`, `dt`, `st`, `redraw`, `ir`, `cause` are the spec's own decisions D3, D14, log entry 4; the ports' are
the model's, log entries 2, 3, 6, 7, 8). That an address outside memory, at 4096 or above, also reads 0 is the model's
choice (log entry 9). -/
def Obligations.LaunchStateAsTabled : Prop :=
  ∀ img : List Byte, img.length ≤ 3584 → ∃ s : State, launch img = .ok s ∧
    (∀ k, (hk : k < 16) → s.x[k] = 0) ∧ s.I = 0 ∧ s.pc = 0x0200 ∧ s.sp = 0 ∧
    (∀ k, (hk : k < 16) → s.stack[k] = 0) ∧ s.dt = 0 ∧ s.st = 0 ∧ (∀ r, (hr : r < 32) → s.fb[r] = 0) ∧
    s.redraw = false ∧ s.ir = 0 ∧ s.run = .running ∧ s.cause = .none ∧ s.ports = Ports.reset ∧
    (∀ k, (hk : k < img.length) → s.mem.read (0x200 + k) = img[k]) ∧
    (∀ a, a < 0x200 ∨ 0x200 + img.length ≤ a → s.mem.read a = 0)

/-- An image longer than 3584 bytes has no launch state (R223; the spec's own decision D20). -/
def Obligations.OverlongImageIsRefused : Prop :=
  ∀ img : List Byte, 3584 < img.length → launch img = .error (.imageTooLong img.length)

/-- Reset, and the launch state of every image, meet the invariants. -/
def Obligations.LaunchMeetsTheInvariants : Prop :=
  State.reset.Inv ∧ ∀ (img : List Byte) (s : State), launch img = .ok s → s.Inv

/-- Every tick from a state that meets the invariants of R23, R27, R30, R35, R37, R42, R102 gives a state that meets
them. -/
def Obligations.EveryTickKeepsTheInvariants : Prop :=
  ∀ s t : State, s.Inv → step s = .next t → t.Inv
end

