-- ==== Sys2Proof/Laws/Memory.lean ====
section
/-! SUPPORT. What the memory operations do: every one keeps the canonical form, a read after a write gives the value
written, and a write leaves every other address alone. -/

namespace Sys2Proof.Machine

theorem Memory.wfFrom_cons (lo k : Nat) (v : Byte) (m : Memory) :
    Memory.wfFrom lo ((k, v) :: m) = true ↔ lo ≤ k ∧ k < Config.memSize ∧ v ≠ 0 ∧ Memory.wfFrom (k + 1) m = true := by
  simp [Memory.wfFrom, and_assoc]

theorem Memory.wfFrom_mono {lo lo' : Nat} {m : Memory} (h : lo' ≤ lo) (hm : Memory.wfFrom lo m = true) :
    Memory.wfFrom lo' m = true := by
  cases m with
  | nil => rfl
  | cons c m =>
    obtain ⟨k, v⟩ := c
    rw [Memory.wfFrom_cons] at hm ⊢
    exact ⟨by omega, hm.2⟩

/-- An address below the list's start is not listed. -/
theorem Memory.read_below {lo a : Nat} {m : Memory} (hm : Memory.wfFrom lo m = true) (ha : a < lo) : m.read a = 0 := by
  induction m generalizing lo with
  | nil => rfl
  | cons c m ih =>
    obtain ⟨k, v⟩ := c
    rw [Memory.wfFrom_cons] at hm
    rw [Memory.read, if_neg (by omega)]
    exact ih hm.2.2.2 (by omega)

/-- An address outside the memory reads as an unlisted one (R226). -/
theorem Memory.read_outside {lo a : Nat} {m : Memory} (hm : Memory.wfFrom lo m = true) (ha : Config.memSize ≤ a) :
    m.read a = 0 := by
  induction m generalizing lo with
  | nil => rfl
  | cons c m ih =>
    obtain ⟨k, v⟩ := c
    rw [Memory.wfFrom_cons] at hm
    rw [Memory.read, if_neg (by omega)]
    exact ih hm.2.2.2

theorem Memory.insert_wfFrom {lo a : Nat} {m : Memory} (v : Byte) (hm : Memory.wfFrom lo m = true) (hlo : lo ≤ a)
    (ha : a < Config.memSize) : Memory.wfFrom lo (m.insert a v) = true := by
  induction m generalizing lo with
  | nil =>
    rw [Memory.insert]
    split
    · rfl
    · rename_i hv
      exact (Memory.wfFrom_cons ..).2 ⟨hlo, ha, hv, rfl⟩
  | cons c m ih =>
    obtain ⟨k, w⟩ := c
    have h := (Memory.wfFrom_cons ..).1 hm
    rw [Memory.insert]
    split_ifs with h1 h2 h3 h4
    · exact hm
    · exact (Memory.wfFrom_cons ..).2 ⟨hlo, ha, h2, (Memory.wfFrom_cons ..).2 ⟨by omega, h.2⟩⟩
    · exact Memory.wfFrom_mono (by omega) h.2.2.2
    · exact (Memory.wfFrom_cons ..).2 ⟨hlo, ha, h4, h3 ▸ h.2.2.2⟩
    · exact (Memory.wfFrom_cons ..).2 ⟨h.1, h.2.1, h.2.2.1, ih h.2.2.2 (by omega)⟩

theorem Memory.read_insert {lo a : Nat} {m : Memory} (v : Byte) (hm : Memory.wfFrom lo m = true) (b : Nat) :
    (m.insert a v).read b = if a = b then v else m.read b := by
  induction m generalizing lo with
  | nil =>
    rw [Memory.insert]
    split <;> simp_all [Memory.read]
  | cons c m ih =>
    obtain ⟨k, w⟩ := c
    have h := (Memory.wfFrom_cons ..).1 hm
    rw [Memory.insert]
    by_cases h1 : a < k
    · rw [if_pos h1]
      by_cases h2 : v = 0
      · -- a zero byte before the first entry: nothing is listed there
        rw [if_pos h2]
        by_cases hab : a = b
        · subst hab
          rw [if_pos rfl, Memory.read, if_neg (by omega), Memory.read_below h.2.2.2 (by omega), h2]
        · rw [if_neg hab]
      · rw [if_neg h2, Memory.read]
    · rw [if_neg h1]
      by_cases h3 : a = k
      · rw [if_pos h3]
        subst h3
        by_cases h4 : v = 0
        · -- a zero byte over an entry: the entry is gone
          rw [if_pos h4]
          by_cases hab : a = b
          · subst hab
            rw [if_pos rfl, Memory.read_below h.2.2.2 (by omega), h4]
          · rw [if_neg hab, Memory.read, if_neg hab]
        · rw [if_neg h4]
          by_cases hab : a = b <;> simp [Memory.read, hab]
      · rw [if_neg h3, Memory.read, ih h.2.2.2]
        by_cases hab : a = b
        · subst hab
          rw [if_neg (by omega), if_pos rfl, if_pos rfl]
        · rw [if_neg hab, if_neg hab, Memory.read]

/-- Every write keeps the canonical form. -/
theorem Memory.write_wf {m : Memory} (hm : m.wf = true) (a : Nat) (v : Byte) : (m.write a v).wf = true := by
  rw [Memory.write]
  split
  · exact Memory.insert_wfFrom v hm (Nat.zero_le a) ‹_›
  · exact hm

/-- A read after a write inside the memory. -/
theorem Memory.read_write {m : Memory} (hm : m.wf = true) {a : Nat} (ha : a < Config.memSize) (v : Byte) (b : Nat) :
    (m.write a v).read b = if a = b then v else m.read b := by
  rw [Memory.write, if_pos ha, Memory.read_insert v hm]

theorem Memory.writeAll_wf {m : Memory} (hm : m.wf = true) (a : Nat) (bs : List Byte) :
    (m.writeAll a bs).wf = true := by
  induction bs generalizing m a with
  | nil => exact hm
  | cons b bs ih => exact ih (Memory.write_wf hm a b) (a + 1)

/-- A read after a run of writes that fits the memory: the byte written there, or what was there before. -/
theorem Memory.read_writeAll {m : Memory} (hm : m.wf = true) {a : Nat} {bs : List Byte}
    (ha : a + bs.length ≤ Config.memSize) (c : Nat) :
    (m.writeAll a bs).read c = if a ≤ c then (bs[c - a]?).getD (m.read c) else m.read c := by
  induction bs generalizing m a with
  | nil => simp [Memory.writeAll]
  | cons b bs ih =>
    rw [List.length_cons] at ha
    rw [Memory.writeAll, ih (Memory.write_wf hm a b) (by omega), Memory.read_write hm (by omega)]
    rcases Nat.lt_trichotomy c a with h | h | h
    · rw [if_neg (by omega), if_neg (by omega), if_neg (by omega)]
    · subst h
      rw [if_neg (by omega), if_pos rfl, if_pos le_rfl, Nat.sub_self]
      rfl
    · rw [if_pos (by omega), if_neg (by omega), if_pos (by omega), show c - a = c - (a + 1) + 1 by omega,
        List.getElem?_cons_succ]

theorem Memory.ofImage_wf (img : List Byte) : (Memory.ofImage img).wf = true := Memory.writeAll_wf rfl _ img

/-- Two memories in canonical form that read alike are the same list. -/
theorem Memory.eq_of_read {lo : Nat} {m m' : Memory} (hm : Memory.wfFrom lo m = true) (hm' : Memory.wfFrom lo m' = true)
    (h : ∀ a, m.read a = m'.read a) : m = m' := by
  induction m generalizing lo m' with
  | nil =>
    cases m' with
    | nil => rfl
    | cons c m' =>
      obtain ⟨k, v⟩ := c
      have hv := ((Memory.wfFrom_cons ..).1 hm').2.2.1
      have hk := h k
      rw [Memory.read, Memory.read, if_pos rfl] at hk
      exact absurd hk.symm hv
  | cons c m ih =>
    obtain ⟨k, v⟩ := c
    have h1 := (Memory.wfFrom_cons ..).1 hm
    cases m' with
    | nil =>
      have hk := h k
      rw [Memory.read, Memory.read, if_pos rfl] at hk
      exact absurd hk h1.2.2.1
    | cons c' m' =>
      obtain ⟨k', v'⟩ := c'
      have h2 := (Memory.wfFrom_cons ..).1 hm'
      have hkk : k = k' := by
        rcases Nat.lt_trichotomy k k' with hlt | heq | hgt
        · have hk := h k
          rw [Memory.read, if_pos rfl, Memory.read, if_neg (by omega), Memory.read_below h2.2.2.2 (by omega)] at hk
          exact absurd hk h1.2.2.1
        · exact heq
        · have hk := h k'
          rw [Memory.read, if_neg (by omega), Memory.read_below h1.2.2.2 (by omega), Memory.read, if_pos rfl] at hk
          exact absurd hk.symm h2.2.2.1
      subst hkk
      have hv := h k
      rw [Memory.read, Memory.read, if_pos rfl, if_pos rfl] at hv
      subst hv
      refine congrArg _ (ih h1.2.2.2 h2.2.2.2 fun a => ?_)
      by_cases ha : k = a
      · subst ha
        rw [Memory.read_below h1.2.2.2 (by omega), Memory.read_below h2.2.2.2 (by omega)]
      · have := h a
        rwa [Memory.read, if_neg ha, Memory.read, if_neg ha] at this

/-! ## Runs of bytes -/

@[simp] theorem Memory.length_bytes (m : Memory) (a n : Nat) : (m.bytes a n).length = n := by
  induction n generalizing a with
  | zero => rfl
  | succ n ih => rw [Memory.bytes, List.length_cons, ih]

theorem Memory.getElem_bytes (m : Memory) (a n i : Nat) (hi : i < (m.bytes a n).length) :
    (m.bytes a n)[i] = m.read (a + i) := by
  induction n generalizing a i with
  | zero => simp [Memory.bytes] at hi
  | succ n ih =>
    cases i with
    | zero => rfl
    | succ i =>
      have := ih (a + 1) i (by simpa [Memory.bytes] using hi)
      simpa [Memory.bytes, Nat.add_assoc, Nat.add_comm 1] using this

end Sys2Proof.Machine
end

