-- ==== Sys2Proof/Laws/Display.lean ====
section
/-! SUPPORT. What the sprite engine does to a frame, row by row. -/

namespace Sys2Proof.Machine

theorem Frame.row_eq (f : Frame) (r : Nat) (hr : r < 32) : Frame.row f r = f[r] := by
  simp [Frame.row, hr]

theorem Frame.getElem_orRow (f : Frame) (r : Nat) (bits : FbRow) (j : Nat) (hj : j < 32) :
    (Frame.orRow f r bits)[j] = if r = j then f[j] ||| bits else f[j] := by
  rw [Frame.orRow, Vector.getElem_setIfInBounds]
  split
  · rename_i h
    subst h
    rw [Frame.row_eq _ _ hj]
  · rfl

/-- The loop of DRW: the rows from `r` down get one sprite byte each, every other row is as before. -/
theorem Frame.getElem_blit (f : Frame) (vx r : Nat) (bs : List Byte) (j : Nat) (hj : j < 32) :
    (Frame.blit f vx r bs)[j] =
      if h : r ≤ j ∧ j - r < bs.length then f[j] ||| spriteRow (bs[j - r]'h.2) vx else f[j] := by
  induction bs generalizing f r with
  | nil => simp [Frame.blit]
  | cons b bs ih =>
    rw [Frame.blit, ih, Frame.getElem_orRow]
    rcases Nat.lt_trichotomy j r with h | h | h
    · rw [dif_neg (by omega), dif_neg (by omega), if_neg (by omega)]
    · subst h
      rw [dif_neg (by omega), dif_pos (by simp), if_pos rfl]
      simp
    · by_cases hb : j - (r + 1) < bs.length
      · rw [dif_pos ⟨by omega, hb⟩, dif_pos ⟨by omega, by simp; omega⟩, if_neg (by omega)]
        simp only [show j - r = j - (r + 1) + 1 by omega, List.getElem_cons_succ]
      · rw [dif_neg (by omega), dif_neg (by simp; omega), if_neg (by omega)]

/-- The rows after a DRW (R151): sprite row `j − y` is the memory byte at `I + (j − y)`. -/
theorem State.getElem_drawn (s : State) (x y : RegIdx) (n : Nibble) (j : Nat) (hj : j < 32) :
    (s.drawn x y n)[j] =
      if (s.readX y).toNat ≤ j ∧ j < (s.readX y).toNat + n.toNat then
        s.fb[j] ||| spriteRow (s.mem.read (s.I.toNat + (j - (s.readX y).toNat))) (s.readX x).toNat
      else s.fb[j] := by
  rw [State.drawn, Frame.getElem_blit]
  by_cases h : (s.readX y).toNat ≤ j ∧ j < (s.readX y).toNat + n.toNat
  · rw [dif_pos ⟨h.1, by simp; omega⟩, if_pos h, Memory.getElem_bytes]
  · rw [dif_neg (by simp; omega), if_neg h]

/-- A DRW raises nothing exactly when the sprite fits (R152, R157). -/
theorem spriteFault_eq_none (vx vy n a : Nat) :
    spriteFault vx vy n a = none ↔ n = 0 ∨ (vx ≤ 56 ∧ vy + n ≤ 32 ∧ a + n ≤ 4096) := by
  simp only [spriteFault, Config.spriteMaxX, Config.fbRows, Config.memSize]
  split_ifs <;> simp <;> omega

end Sys2Proof.Machine
end

