-- ==== Sys2Proof/Laws/State.lean ====
section
/-! SUPPORT. One lemma per field per update of State, each true by rfl, so that no later proof unfolds an update. -/

namespace Sys2Proof.Machine

variable (s : State)

@[simp] theorem State.writeX_x (i : RegIdx) (v : Byte) : (s.writeX i v).x = s.x.set i.toNat v i.isLt := rfl
@[simp] theorem State.writeX_I (i : RegIdx) (v : Byte) : (s.writeX i v).I = s.I := rfl
@[simp] theorem State.writeX_pc (i : RegIdx) (v : Byte) : (s.writeX i v).pc = s.pc := rfl
@[simp] theorem State.writeX_sp (i : RegIdx) (v : Byte) : (s.writeX i v).sp = s.sp := rfl
@[simp] theorem State.writeX_stack (i : RegIdx) (v : Byte) : (s.writeX i v).stack = s.stack := rfl
@[simp] theorem State.writeX_dt (i : RegIdx) (v : Byte) : (s.writeX i v).dt = s.dt := rfl
@[simp] theorem State.writeX_st (i : RegIdx) (v : Byte) : (s.writeX i v).st = s.st := rfl
@[simp] theorem State.writeX_fb (i : RegIdx) (v : Byte) : (s.writeX i v).fb = s.fb := rfl
@[simp] theorem State.writeX_redraw (i : RegIdx) (v : Byte) : (s.writeX i v).redraw = s.redraw := rfl
@[simp] theorem State.writeX_ir (i : RegIdx) (v : Byte) : (s.writeX i v).ir = s.ir := rfl
@[simp] theorem State.writeX_run (i : RegIdx) (v : Byte) : (s.writeX i v).run = s.run := rfl
@[simp] theorem State.writeX_cause (i : RegIdx) (v : Byte) : (s.writeX i v).cause = s.cause := rfl
@[simp] theorem State.writeX_mem (i : RegIdx) (v : Byte) : (s.writeX i v).mem = s.mem := rfl
@[simp] theorem State.writeX_ports (i : RegIdx) (v : Byte) : (s.writeX i v).ports = s.ports := rfl

@[simp] theorem State.writeI_x (v : Word) : (s.writeI v).x = s.x := rfl
@[simp] theorem State.writeI_I (v : Word) : (s.writeI v).I = v := rfl
@[simp] theorem State.writeI_pc (v : Word) : (s.writeI v).pc = s.pc := rfl
@[simp] theorem State.writeI_sp (v : Word) : (s.writeI v).sp = s.sp := rfl
@[simp] theorem State.writeI_stack (v : Word) : (s.writeI v).stack = s.stack := rfl
@[simp] theorem State.writeI_dt (v : Word) : (s.writeI v).dt = s.dt := rfl
@[simp] theorem State.writeI_st (v : Word) : (s.writeI v).st = s.st := rfl
@[simp] theorem State.writeI_fb (v : Word) : (s.writeI v).fb = s.fb := rfl
@[simp] theorem State.writeI_redraw (v : Word) : (s.writeI v).redraw = s.redraw := rfl
@[simp] theorem State.writeI_ir (v : Word) : (s.writeI v).ir = s.ir := rfl
@[simp] theorem State.writeI_run (v : Word) : (s.writeI v).run = s.run := rfl
@[simp] theorem State.writeI_cause (v : Word) : (s.writeI v).cause = s.cause := rfl
@[simp] theorem State.writeI_mem (v : Word) : (s.writeI v).mem = s.mem := rfl
@[simp] theorem State.writeI_ports (v : Word) : (s.writeI v).ports = s.ports := rfl

@[simp] theorem State.writePc_x (v : Word) : (s.writePc v).x = s.x := rfl
@[simp] theorem State.writePc_I (v : Word) : (s.writePc v).I = s.I := rfl
@[simp] theorem State.writePc_pc (v : Word) : (s.writePc v).pc = v := rfl
@[simp] theorem State.writePc_sp (v : Word) : (s.writePc v).sp = s.sp := rfl
@[simp] theorem State.writePc_stack (v : Word) : (s.writePc v).stack = s.stack := rfl
@[simp] theorem State.writePc_dt (v : Word) : (s.writePc v).dt = s.dt := rfl
@[simp] theorem State.writePc_st (v : Word) : (s.writePc v).st = s.st := rfl
@[simp] theorem State.writePc_fb (v : Word) : (s.writePc v).fb = s.fb := rfl
@[simp] theorem State.writePc_redraw (v : Word) : (s.writePc v).redraw = s.redraw := rfl
@[simp] theorem State.writePc_ir (v : Word) : (s.writePc v).ir = s.ir := rfl
@[simp] theorem State.writePc_run (v : Word) : (s.writePc v).run = s.run := rfl
@[simp] theorem State.writePc_cause (v : Word) : (s.writePc v).cause = s.cause := rfl
@[simp] theorem State.writePc_mem (v : Word) : (s.writePc v).mem = s.mem := rfl
@[simp] theorem State.writePc_ports (v : Word) : (s.writePc v).ports = s.ports := rfl

@[simp] theorem State.advance_x (n : Word) : (s.advance n).x = s.x := rfl
@[simp] theorem State.advance_I (n : Word) : (s.advance n).I = s.I := rfl
@[simp] theorem State.advance_pc (n : Word) : (s.advance n).pc = s.pc + n := rfl
@[simp] theorem State.advance_sp (n : Word) : (s.advance n).sp = s.sp := rfl
@[simp] theorem State.advance_stack (n : Word) : (s.advance n).stack = s.stack := rfl
@[simp] theorem State.advance_dt (n : Word) : (s.advance n).dt = s.dt := rfl
@[simp] theorem State.advance_st (n : Word) : (s.advance n).st = s.st := rfl
@[simp] theorem State.advance_fb (n : Word) : (s.advance n).fb = s.fb := rfl
@[simp] theorem State.advance_redraw (n : Word) : (s.advance n).redraw = s.redraw := rfl
@[simp] theorem State.advance_ir (n : Word) : (s.advance n).ir = s.ir := rfl
@[simp] theorem State.advance_run (n : Word) : (s.advance n).run = s.run := rfl
@[simp] theorem State.advance_cause (n : Word) : (s.advance n).cause = s.cause := rfl
@[simp] theorem State.advance_mem (n : Word) : (s.advance n).mem = s.mem := rfl
@[simp] theorem State.advance_ports (n : Word) : (s.advance n).ports = s.ports := rfl

@[simp] theorem State.writeSp_x (v : BitVec 4) : (s.writeSp v).x = s.x := rfl
@[simp] theorem State.writeSp_I (v : BitVec 4) : (s.writeSp v).I = s.I := rfl
@[simp] theorem State.writeSp_pc (v : BitVec 4) : (s.writeSp v).pc = s.pc := rfl
@[simp] theorem State.writeSp_sp (v : BitVec 4) : (s.writeSp v).sp = v := rfl
@[simp] theorem State.writeSp_stack (v : BitVec 4) : (s.writeSp v).stack = s.stack := rfl
@[simp] theorem State.writeSp_dt (v : BitVec 4) : (s.writeSp v).dt = s.dt := rfl
@[simp] theorem State.writeSp_st (v : BitVec 4) : (s.writeSp v).st = s.st := rfl
@[simp] theorem State.writeSp_fb (v : BitVec 4) : (s.writeSp v).fb = s.fb := rfl
@[simp] theorem State.writeSp_redraw (v : BitVec 4) : (s.writeSp v).redraw = s.redraw := rfl
@[simp] theorem State.writeSp_ir (v : BitVec 4) : (s.writeSp v).ir = s.ir := rfl
@[simp] theorem State.writeSp_run (v : BitVec 4) : (s.writeSp v).run = s.run := rfl
@[simp] theorem State.writeSp_cause (v : BitVec 4) : (s.writeSp v).cause = s.cause := rfl
@[simp] theorem State.writeSp_mem (v : BitVec 4) : (s.writeSp v).mem = s.mem := rfl
@[simp] theorem State.writeSp_ports (v : BitVec 4) : (s.writeSp v).ports = s.ports := rfl

@[simp] theorem State.writeSlot_x (k : BitVec 4) (v : Word) : (s.writeSlot k v).x = s.x := rfl
@[simp] theorem State.writeSlot_I (k : BitVec 4) (v : Word) : (s.writeSlot k v).I = s.I := rfl
@[simp] theorem State.writeSlot_pc (k : BitVec 4) (v : Word) : (s.writeSlot k v).pc = s.pc := rfl
@[simp] theorem State.writeSlot_sp (k : BitVec 4) (v : Word) : (s.writeSlot k v).sp = s.sp := rfl
@[simp] theorem State.writeSlot_stack (k : BitVec 4) (v : Word) : (s.writeSlot k v).stack = s.stack.set k.toNat v k.isLt := rfl
@[simp] theorem State.writeSlot_dt (k : BitVec 4) (v : Word) : (s.writeSlot k v).dt = s.dt := rfl
@[simp] theorem State.writeSlot_st (k : BitVec 4) (v : Word) : (s.writeSlot k v).st = s.st := rfl
@[simp] theorem State.writeSlot_fb (k : BitVec 4) (v : Word) : (s.writeSlot k v).fb = s.fb := rfl
@[simp] theorem State.writeSlot_redraw (k : BitVec 4) (v : Word) : (s.writeSlot k v).redraw = s.redraw := rfl
@[simp] theorem State.writeSlot_ir (k : BitVec 4) (v : Word) : (s.writeSlot k v).ir = s.ir := rfl
@[simp] theorem State.writeSlot_run (k : BitVec 4) (v : Word) : (s.writeSlot k v).run = s.run := rfl
@[simp] theorem State.writeSlot_cause (k : BitVec 4) (v : Word) : (s.writeSlot k v).cause = s.cause := rfl
@[simp] theorem State.writeSlot_mem (k : BitVec 4) (v : Word) : (s.writeSlot k v).mem = s.mem := rfl
@[simp] theorem State.writeSlot_ports (k : BitVec 4) (v : Word) : (s.writeSlot k v).ports = s.ports := rfl

@[simp] theorem State.writeDt_x (v : Byte) : (s.writeDt v).x = s.x := rfl
@[simp] theorem State.writeDt_I (v : Byte) : (s.writeDt v).I = s.I := rfl
@[simp] theorem State.writeDt_pc (v : Byte) : (s.writeDt v).pc = s.pc := rfl
@[simp] theorem State.writeDt_sp (v : Byte) : (s.writeDt v).sp = s.sp := rfl
@[simp] theorem State.writeDt_stack (v : Byte) : (s.writeDt v).stack = s.stack := rfl
@[simp] theorem State.writeDt_dt (v : Byte) : (s.writeDt v).dt = v := rfl
@[simp] theorem State.writeDt_st (v : Byte) : (s.writeDt v).st = s.st := rfl
@[simp] theorem State.writeDt_fb (v : Byte) : (s.writeDt v).fb = s.fb := rfl
@[simp] theorem State.writeDt_redraw (v : Byte) : (s.writeDt v).redraw = s.redraw := rfl
@[simp] theorem State.writeDt_ir (v : Byte) : (s.writeDt v).ir = s.ir := rfl
@[simp] theorem State.writeDt_run (v : Byte) : (s.writeDt v).run = s.run := rfl
@[simp] theorem State.writeDt_cause (v : Byte) : (s.writeDt v).cause = s.cause := rfl
@[simp] theorem State.writeDt_mem (v : Byte) : (s.writeDt v).mem = s.mem := rfl
@[simp] theorem State.writeDt_ports (v : Byte) : (s.writeDt v).ports = s.ports := rfl

@[simp] theorem State.writeSt_x (v : Byte) : (s.writeSt v).x = s.x := rfl
@[simp] theorem State.writeSt_I (v : Byte) : (s.writeSt v).I = s.I := rfl
@[simp] theorem State.writeSt_pc (v : Byte) : (s.writeSt v).pc = s.pc := rfl
@[simp] theorem State.writeSt_sp (v : Byte) : (s.writeSt v).sp = s.sp := rfl
@[simp] theorem State.writeSt_stack (v : Byte) : (s.writeSt v).stack = s.stack := rfl
@[simp] theorem State.writeSt_dt (v : Byte) : (s.writeSt v).dt = s.dt := rfl
@[simp] theorem State.writeSt_st (v : Byte) : (s.writeSt v).st = v := rfl
@[simp] theorem State.writeSt_fb (v : Byte) : (s.writeSt v).fb = s.fb := rfl
@[simp] theorem State.writeSt_redraw (v : Byte) : (s.writeSt v).redraw = s.redraw := rfl
@[simp] theorem State.writeSt_ir (v : Byte) : (s.writeSt v).ir = s.ir := rfl
@[simp] theorem State.writeSt_run (v : Byte) : (s.writeSt v).run = s.run := rfl
@[simp] theorem State.writeSt_cause (v : Byte) : (s.writeSt v).cause = s.cause := rfl
@[simp] theorem State.writeSt_mem (v : Byte) : (s.writeSt v).mem = s.mem := rfl
@[simp] theorem State.writeSt_ports (v : Byte) : (s.writeSt v).ports = s.ports := rfl

@[simp] theorem State.writeFb_x (f : Frame) : (s.writeFb f).x = s.x := rfl
@[simp] theorem State.writeFb_I (f : Frame) : (s.writeFb f).I = s.I := rfl
@[simp] theorem State.writeFb_pc (f : Frame) : (s.writeFb f).pc = s.pc := rfl
@[simp] theorem State.writeFb_sp (f : Frame) : (s.writeFb f).sp = s.sp := rfl
@[simp] theorem State.writeFb_stack (f : Frame) : (s.writeFb f).stack = s.stack := rfl
@[simp] theorem State.writeFb_dt (f : Frame) : (s.writeFb f).dt = s.dt := rfl
@[simp] theorem State.writeFb_st (f : Frame) : (s.writeFb f).st = s.st := rfl
@[simp] theorem State.writeFb_fb (f : Frame) : (s.writeFb f).fb = f := rfl
@[simp] theorem State.writeFb_redraw (f : Frame) : (s.writeFb f).redraw = s.redraw := rfl
@[simp] theorem State.writeFb_ir (f : Frame) : (s.writeFb f).ir = s.ir := rfl
@[simp] theorem State.writeFb_run (f : Frame) : (s.writeFb f).run = s.run := rfl
@[simp] theorem State.writeFb_cause (f : Frame) : (s.writeFb f).cause = s.cause := rfl
@[simp] theorem State.writeFb_mem (f : Frame) : (s.writeFb f).mem = s.mem := rfl
@[simp] theorem State.writeFb_ports (f : Frame) : (s.writeFb f).ports = s.ports := rfl

@[simp] theorem State.writeIr_x (w : Word) : (s.writeIr w).x = s.x := rfl
@[simp] theorem State.writeIr_I (w : Word) : (s.writeIr w).I = s.I := rfl
@[simp] theorem State.writeIr_pc (w : Word) : (s.writeIr w).pc = s.pc := rfl
@[simp] theorem State.writeIr_sp (w : Word) : (s.writeIr w).sp = s.sp := rfl
@[simp] theorem State.writeIr_stack (w : Word) : (s.writeIr w).stack = s.stack := rfl
@[simp] theorem State.writeIr_dt (w : Word) : (s.writeIr w).dt = s.dt := rfl
@[simp] theorem State.writeIr_st (w : Word) : (s.writeIr w).st = s.st := rfl
@[simp] theorem State.writeIr_fb (w : Word) : (s.writeIr w).fb = s.fb := rfl
@[simp] theorem State.writeIr_redraw (w : Word) : (s.writeIr w).redraw = s.redraw := rfl
@[simp] theorem State.writeIr_ir (w : Word) : (s.writeIr w).ir = w := rfl
@[simp] theorem State.writeIr_run (w : Word) : (s.writeIr w).run = s.run := rfl
@[simp] theorem State.writeIr_cause (w : Word) : (s.writeIr w).cause = s.cause := rfl
@[simp] theorem State.writeIr_mem (w : Word) : (s.writeIr w).mem = s.mem := rfl
@[simp] theorem State.writeIr_ports (w : Word) : (s.writeIr w).ports = s.ports := rfl

@[simp] theorem State.writePorts_x (p : Ports) : (s.writePorts p).x = s.x := rfl
@[simp] theorem State.writePorts_I (p : Ports) : (s.writePorts p).I = s.I := rfl
@[simp] theorem State.writePorts_pc (p : Ports) : (s.writePorts p).pc = s.pc := rfl
@[simp] theorem State.writePorts_sp (p : Ports) : (s.writePorts p).sp = s.sp := rfl
@[simp] theorem State.writePorts_stack (p : Ports) : (s.writePorts p).stack = s.stack := rfl
@[simp] theorem State.writePorts_dt (p : Ports) : (s.writePorts p).dt = s.dt := rfl
@[simp] theorem State.writePorts_st (p : Ports) : (s.writePorts p).st = s.st := rfl
@[simp] theorem State.writePorts_fb (p : Ports) : (s.writePorts p).fb = s.fb := rfl
@[simp] theorem State.writePorts_redraw (p : Ports) : (s.writePorts p).redraw = s.redraw := rfl
@[simp] theorem State.writePorts_ir (p : Ports) : (s.writePorts p).ir = s.ir := rfl
@[simp] theorem State.writePorts_run (p : Ports) : (s.writePorts p).run = s.run := rfl
@[simp] theorem State.writePorts_cause (p : Ports) : (s.writePorts p).cause = s.cause := rfl
@[simp] theorem State.writePorts_mem (p : Ports) : (s.writePorts p).mem = s.mem := rfl
@[simp] theorem State.writePorts_ports (p : Ports) : (s.writePorts p).ports = p := rfl

@[simp] theorem State.setRedraw_x : s.setRedraw.x = s.x := rfl
@[simp] theorem State.setRedraw_I : s.setRedraw.I = s.I := rfl
@[simp] theorem State.setRedraw_pc : s.setRedraw.pc = s.pc := rfl
@[simp] theorem State.setRedraw_sp : s.setRedraw.sp = s.sp := rfl
@[simp] theorem State.setRedraw_stack : s.setRedraw.stack = s.stack := rfl
@[simp] theorem State.setRedraw_dt : s.setRedraw.dt = s.dt := rfl
@[simp] theorem State.setRedraw_st : s.setRedraw.st = s.st := rfl
@[simp] theorem State.setRedraw_fb : s.setRedraw.fb = s.fb := rfl
@[simp] theorem State.setRedraw_redraw : s.setRedraw.redraw = true := rfl
@[simp] theorem State.setRedraw_ir : s.setRedraw.ir = s.ir := rfl
@[simp] theorem State.setRedraw_run : s.setRedraw.run = s.run := rfl
@[simp] theorem State.setRedraw_cause : s.setRedraw.cause = s.cause := rfl
@[simp] theorem State.setRedraw_mem : s.setRedraw.mem = s.mem := rfl
@[simp] theorem State.setRedraw_ports : s.setRedraw.ports = s.ports := rfl

@[simp] theorem State.clearRedraw_x : s.clearRedraw.x = s.x := rfl
@[simp] theorem State.clearRedraw_I : s.clearRedraw.I = s.I := rfl
@[simp] theorem State.clearRedraw_pc : s.clearRedraw.pc = s.pc := rfl
@[simp] theorem State.clearRedraw_sp : s.clearRedraw.sp = s.sp := rfl
@[simp] theorem State.clearRedraw_stack : s.clearRedraw.stack = s.stack := rfl
@[simp] theorem State.clearRedraw_dt : s.clearRedraw.dt = s.dt := rfl
@[simp] theorem State.clearRedraw_st : s.clearRedraw.st = s.st := rfl
@[simp] theorem State.clearRedraw_fb : s.clearRedraw.fb = s.fb := rfl
@[simp] theorem State.clearRedraw_redraw : s.clearRedraw.redraw = false := rfl
@[simp] theorem State.clearRedraw_ir : s.clearRedraw.ir = s.ir := rfl
@[simp] theorem State.clearRedraw_run : s.clearRedraw.run = s.run := rfl
@[simp] theorem State.clearRedraw_cause : s.clearRedraw.cause = s.cause := rfl
@[simp] theorem State.clearRedraw_mem : s.clearRedraw.mem = s.mem := rfl
@[simp] theorem State.clearRedraw_ports : s.clearRedraw.ports = s.ports := rfl

@[simp] theorem State.push_x (v : Word) : (s.push v).x = s.x := rfl
@[simp] theorem State.push_I (v : Word) : (s.push v).I = s.I := rfl
@[simp] theorem State.push_pc (v : Word) : (s.push v).pc = s.pc := rfl
@[simp] theorem State.push_sp (v : Word) : (s.push v).sp = s.sp + 1 := rfl
@[simp] theorem State.push_stack (v : Word) : (s.push v).stack = s.stack.set s.sp.toNat v s.sp.isLt := rfl
@[simp] theorem State.push_dt (v : Word) : (s.push v).dt = s.dt := rfl
@[simp] theorem State.push_st (v : Word) : (s.push v).st = s.st := rfl
@[simp] theorem State.push_fb (v : Word) : (s.push v).fb = s.fb := rfl
@[simp] theorem State.push_redraw (v : Word) : (s.push v).redraw = s.redraw := rfl
@[simp] theorem State.push_ir (v : Word) : (s.push v).ir = s.ir := rfl
@[simp] theorem State.push_run (v : Word) : (s.push v).run = s.run := rfl
@[simp] theorem State.push_cause (v : Word) : (s.push v).cause = s.cause := rfl
@[simp] theorem State.push_mem (v : Word) : (s.push v).mem = s.mem := rfl
@[simp] theorem State.push_ports (v : Word) : (s.push v).ports = s.ports := rfl

@[simp] theorem State.popPc_x : s.popPc.x = s.x := rfl
@[simp] theorem State.popPc_I : s.popPc.I = s.I := rfl
@[simp] theorem State.popPc_pc : s.popPc.pc = s.readSlot (s.sp - 1) := rfl
@[simp] theorem State.popPc_sp : s.popPc.sp = s.sp - 1 := rfl
@[simp] theorem State.popPc_stack : s.popPc.stack = s.stack.set (s.sp - 1).toNat 0 (s.sp - 1).isLt := rfl
@[simp] theorem State.popPc_dt : s.popPc.dt = s.dt := rfl
@[simp] theorem State.popPc_st : s.popPc.st = s.st := rfl
@[simp] theorem State.popPc_fb : s.popPc.fb = s.fb := rfl
@[simp] theorem State.popPc_redraw : s.popPc.redraw = s.redraw := rfl
@[simp] theorem State.popPc_ir : s.popPc.ir = s.ir := rfl
@[simp] theorem State.popPc_run : s.popPc.run = s.run := rfl
@[simp] theorem State.popPc_cause : s.popPc.cause = s.cause := rfl
@[simp] theorem State.popPc_mem : s.popPc.mem = s.mem := rfl
@[simp] theorem State.popPc_ports : s.popPc.ports = s.ports := rfl

@[simp] theorem State.raise_x (c : Cause) : (s.raise c).x = s.x := rfl
@[simp] theorem State.raise_I (c : Cause) : (s.raise c).I = s.I := rfl
@[simp] theorem State.raise_pc (c : Cause) : (s.raise c).pc = s.pc := rfl
@[simp] theorem State.raise_sp (c : Cause) : (s.raise c).sp = s.sp := rfl
@[simp] theorem State.raise_stack (c : Cause) : (s.raise c).stack = s.stack := rfl
@[simp] theorem State.raise_dt (c : Cause) : (s.raise c).dt = s.dt := rfl
@[simp] theorem State.raise_st (c : Cause) : (s.raise c).st = s.st := rfl
@[simp] theorem State.raise_fb (c : Cause) : (s.raise c).fb = s.fb := rfl
@[simp] theorem State.raise_redraw (c : Cause) : (s.raise c).redraw = s.redraw := rfl
@[simp] theorem State.raise_ir (c : Cause) : (s.raise c).ir = s.ir := rfl
@[simp] theorem State.raise_run (c : Cause) : (s.raise c).run = .halted := rfl
@[simp] theorem State.raise_cause (c : Cause) : (s.raise c).cause = c := rfl
@[simp] theorem State.raise_mem (c : Cause) : (s.raise c).mem = s.mem := rfl
@[simp] theorem State.raise_ports (c : Cause) : (s.raise c).ports = s.ports := rfl

/-! ## Reads after writes -/

theorem State.readX_writeX (i j : RegIdx) (v : Byte) :
    (s.writeX i v).readX j = if i = j then v else s.readX j := by
  simp only [State.readX, State.writeX_x, Vector.getElem_set, ← BitVec.toNat_eq]

theorem State.readSlot_writeSlot (j k : BitVec 4) (v : Word) :
    (s.writeSlot j v).readSlot k = if j = k then v else s.readSlot k := by
  simp only [State.readSlot, State.writeSlot_stack, Vector.getElem_set, ← BitVec.toNat_eq]

/-! ## The random source -/

@[simp] theorem Ports.consumeDraw_stops (p : Ports) : p.consumeDraw.stops = p.stops := rfl
@[simp] theorem Ports.consumeDraw_draws (p : Ports) : p.consumeDraw.draws = p.draws.tail := rfl
@[simp] theorem Ports.consumeDraw_drawCount (p : Ports) : p.consumeDraw.drawCount = p.drawCount + 1 := rfl
@[simp] theorem Ports.consumeDraw_keys (p : Ports) : p.consumeDraw.keys = p.keys := rfl
@[simp] theorem Ports.consumeDraw_exitFlag (p : Ports) : p.consumeDraw.exitFlag = p.exitFlag := rfl
@[simp] theorem Ports.consumeDraw_debug (p : Ports) : p.consumeDraw.debug = p.debug := rfl
@[simp] theorem Ports.consumeDraw_frames (p : Ports) : p.consumeDraw.frames = p.frames := rfl
@[simp] theorem Ports.consumeDraw_trace (p : Ports) : p.consumeDraw.trace = p.trace := rfl

/-- A draw is at most 254 (R134). -/
theorem Draw.toByte_toNat_le (r : Draw) : (Draw.toByte r).toNat ≤ 254 := by
  have h := r.isLt
  unfold Config.randMax at h
  rw [Draw.toByte, BitVec.toNat_ofNat]
  omega

end Sys2Proof.Machine
end

