-- ==== Sys2Proof/Laws/Tick.lean ====
section
/-! SUPPORT. What the parts of a tick do, said once: the fields after fetch and after the end of a tick, and the four
ways a step answers a next state. -/

namespace Sys2Proof.Machine

theorem State.canFetch_iff (s : State) : s.canFetch = true ↔ s.pc.toNat ≤ 0xFFE := by
  simp only [State.canFetch, Config.memSize, decide_eq_true_eq]
  omega

/-! ## The stop sample and the fetch -/

theorem State.fetched_eq (s : State) :
    s.fetched = { s with ir := s.fetchWord,
                         ports := Ports.showWord { s.ports with stops := s.ports.stops.tail } s.fetchWord } := rfl

@[simp] theorem State.fetched_x (s : State) : s.fetched.x = s.x := rfl
@[simp] theorem State.fetched_I (s : State) : s.fetched.I = s.I := rfl
@[simp] theorem State.fetched_pc (s : State) : s.fetched.pc = s.pc := rfl
@[simp] theorem State.fetched_sp (s : State) : s.fetched.sp = s.sp := rfl
@[simp] theorem State.fetched_stack (s : State) : s.fetched.stack = s.stack := rfl
@[simp] theorem State.fetched_dt (s : State) : s.fetched.dt = s.dt := rfl
@[simp] theorem State.fetched_st (s : State) : s.fetched.st = s.st := rfl
@[simp] theorem State.fetched_fb (s : State) : s.fetched.fb = s.fb := rfl
@[simp] theorem State.fetched_redraw (s : State) : s.fetched.redraw = s.redraw := rfl
@[simp] theorem State.fetched_ir (s : State) : s.fetched.ir = s.fetchWord := rfl
@[simp] theorem State.fetched_run (s : State) : s.fetched.run = s.run := rfl
@[simp] theorem State.fetched_cause (s : State) : s.fetched.cause = s.cause := rfl
@[simp] theorem State.fetched_mem (s : State) : s.fetched.mem = s.mem := rfl
@[simp] theorem Ports.showWord_frames (p : Ports) (w : Word) : (p.showWord w).frames = p.frames := by
  unfold Ports.showWord; split <;> rfl
@[simp] theorem State.fetched_frames (s : State) : s.fetched.ports.frames = s.ports.frames := by
  rw [State.fetched_eq]; simp

/-! ## The end of a tick -/

/-- A tick that ended in a terminal event does no more work (R95, R96, R97). -/
theorem State.finishTick_halted {s : State} (h : s.run = .halted) : s.finishTick = s := if_pos h

/-- Frame delivery and timer decrement (R98, R99). -/
theorem State.finishTick_running {s : State} (h : s.run = .running) :
    s.finishTick = { s with
      redraw := false
      ports := if s.redraw then { s.ports with frames := s.fb :: s.ports.frames } else s.ports
      dt := countDown s.dt
      st := countDown s.st } := by
  rw [State.finishTick, if_neg (by simp [h]), State.deliverFrame]
  cases hr : s.redraw with
  | true => rfl
  | false =>
    obtain ⟨x, I, pc, sp, stack, dt, st, fb, redraw, ir, run, cause, mem, ports⟩ := s
    subst hr
    rfl

@[simp] theorem State.finishTick_x (s : State) : s.finishTick.x = s.x := by
  unfold State.finishTick State.deliverFrame; split_ifs <;> rfl
@[simp] theorem State.finishTick_I (s : State) : s.finishTick.I = s.I := by
  unfold State.finishTick State.deliverFrame; split_ifs <;> rfl
@[simp] theorem State.finishTick_pc (s : State) : s.finishTick.pc = s.pc := by
  unfold State.finishTick State.deliverFrame; split_ifs <;> rfl
@[simp] theorem State.finishTick_sp (s : State) : s.finishTick.sp = s.sp := by
  unfold State.finishTick State.deliverFrame; split_ifs <;> rfl
@[simp] theorem State.finishTick_stack (s : State) : s.finishTick.stack = s.stack := by
  unfold State.finishTick State.deliverFrame; split_ifs <;> rfl
@[simp] theorem State.finishTick_fb (s : State) : s.finishTick.fb = s.fb := by
  unfold State.finishTick State.deliverFrame; split_ifs <;> rfl
@[simp] theorem State.finishTick_ir (s : State) : s.finishTick.ir = s.ir := by
  unfold State.finishTick State.deliverFrame; split_ifs <;> rfl
@[simp] theorem State.finishTick_run (s : State) : s.finishTick.run = s.run := by
  unfold State.finishTick State.deliverFrame; split_ifs <;> rfl
@[simp] theorem State.finishTick_cause (s : State) : s.finishTick.cause = s.cause := by
  unfold State.finishTick State.deliverFrame; split_ifs <;> rfl
@[simp] theorem State.finishTick_mem (s : State) : s.finishTick.mem = s.mem := by
  unfold State.finishTick State.deliverFrame; split_ifs <;> rfl

theorem countDown_toNat (v : Byte) : (countDown v).toNat = v.toNat - 1 := by
  unfold countDown
  split
  · rename_i h; subst h; rfl
  · rename_i h
    have : v.toNat ≠ 0 := fun h0 => h (BitVec.eq_of_toNat_eq h0)
    have := v.isLt
    rw [BitVec.toNat_sub]
    simp
    omega

/-! ## The step -/

/-- The ways a step answers a next state: an external stop, a fetch outside memory, an unknown word, or an instruction
that ran in the fetched state, followed by the end of the tick. -/
theorem step_cases {s t : State} (h : step s = .next t) :
    s.run = .running ∧
    ((s.stopAsserted = true ∧ t = s.raise .externalStop) ∨
     (s.stopAsserted = false ∧ 0xFFE < s.pc.toNat ∧ t = s.sampleStop.raise .fetchBounds) ∨
     (s.stopAsserted = false ∧ s.pc.toNat ≤ 0xFFE ∧ decodeWord s.fetchWord = none ∧
       t = s.fetched.raise .unknownOpcode) ∨
     (s.stopAsserted = false ∧ s.pc.toNat ≤ 0xFFE ∧ ∃ i u, decodeWord s.fetchWord = some i ∧
       exec i s.fetched = .next u ∧ t = u.finishTick)) := by
  have hcf := s.canFetch_iff
  unfold step State.startTick at h
  cases hr : s.run with
  | halted => simp [hr] at h
  | running =>
    refine ⟨rfl, ?_⟩
    cases hs : s.stopAsserted with
    | true => left; simpa [hr, hs, eq_comm] using h
    | false =>
      right
      cases hc : s.canFetch with
      | false =>
        left
        simp only [hr, hs, hc] at h
        simp [hc] at hcf
        exact ⟨rfl, hcf, by simpa [eq_comm] using h⟩
      | true =>
        right
        have hp := hcf.1 hc
        cases hd : decodeWord s.fetchWord with
        | none =>
          left
          simp only [hr, hs, hc, hd] at h
          exact ⟨rfl, hp, rfl, by simpa [eq_comm] using h⟩
        | some i =>
          right
          simp only [hr, hs, hc, hd] at h
          refine ⟨rfl, hp, i, ?_⟩
          change (match exec i s.fetched with
            | .next u => .next u.finishTick
            | .fault f => .fault f
            | .refused r => .refused r) = Host.Outcome.next t at h
          cases he : exec i s.fetched with
          | next u =>
            rw [he] at h
            exact ⟨u, rfl, rfl, by simpa [eq_comm] using h⟩
          | fault f => rw [he] at h; simp at h
          | refused r => rw [he] at h; simp at h

end Sys2Proof.Machine
end

