-- ==== Sys2Proof/Laws/Exec.lean ====
section
/-! SUPPORT. What `exec` can do, said once for all instructions: it always answers a next state, it leaves memory and
most of the ports alone, and it either raises the instruction's terminal event or keeps the status. -/

namespace Sys2Proof.Machine

/-- Every instruction answers a next state. -/
theorem exec_next (i : Instr) (s : State) : ∃ t, exec i s = .next t := by
  cases i <;> simp only [exec, execHalt, execCls, execRet, execJp, execCall, execSei, execSnei, execSer, execLdi, execAddi,
    execLdx, execRnd, execDrw, execLddt, execLdst] <;>
    first | exact ⟨_, rfl⟩ | (split <;> exact ⟨_, rfl⟩)

/-- No instruction writes memory, `ir`, or any port but the two of the random source. -/
theorem exec_keeps {i : Instr} {s u : State} (h : exec i s = .next u) :
    u.mem = s.mem ∧ u.ir = s.ir ∧ u.ports.frames = s.ports.frames ∧ u.ports.trace = s.ports.trace ∧
      u.ports.stops = s.ports.stops ∧ u.ports.debug = s.ports.debug ∧ u.ports.keys = s.ports.keys ∧
      u.ports.exitFlag = s.ports.exitFlag := by
  cases i <;> simp only [exec, execHalt, execCls, execRet, execJp, execCall, execSei, execSnei, execSer, execLdi, execAddi,
    execLdx, execRnd, execDrw, execLddt, execLdst] at h
  all_goals (try split at h) <;> injection h with h <;> subst h <;> simp [Ports.consumeDraw, State.push, State.popPc]

/-- An instruction that has a terminal event raises it and does nothing else (R184, R185); any other keeps the status. -/
theorem exec_cause {i : Instr} {s u : State} (h : exec i s = .next u) :
    (s.instrCause i = .none ∧ u.run = s.run ∧ u.cause = s.cause) ∨ (s.instrCause i ≠ .none ∧ u = s.raise (s.instrCause i)) := by
  cases i with
  | ret =>
    simp only [exec, execRet] at h
    split at h <;> injection h with h <;> subst h <;> rename_i hs
    · right; simp [State.instrCause, hs]
    · left; have : ¬ s.sp.toNat = 0 := fun h0 => hs (BitVec.eq_of_toNat_eq h0)
      simp [State.instrCause, this, State.popPc]
  | call a =>
    simp only [exec, execCall] at h
    split at h <;> injection h with h <;> subst h <;> rename_i hs
    · right; simp [State.instrCause, hs]
    · left; have : ¬ s.sp.toNat = 15 := fun h0 => hs (BitVec.eq_of_toNat_eq h0)
      simp [State.instrCause, this, State.push]
  | halt =>
    simp only [exec, execHalt] at h
    injection h with h; subst h; right; simp [State.instrCause]
  | drw x y n =>
    simp only [exec, execDrw, spriteFault, Config.spriteMaxX, Config.fbRows, Config.memSize] at h
    simp only [State.instrCause]
    by_cases h0 : n.toNat = 0
    · rw [if_pos h0] at h
      injection h with h; subst h; left; simp [h0]
    · rw [if_neg h0] at h
      have h0' : 1 ≤ n.toNat := by omega
      simp only [h0', true_and]
      by_cases h1 : (s.readX x).toNat > 56
      · rw [if_pos h1] at h; injection h with h; subst h; right; simp [h1]
      · rw [if_neg h1] at h
        rw [if_neg h1]
        by_cases h2 : (s.readX y).toNat + n.toNat > 32
        · rw [if_pos h2] at h; injection h with h; subst h; right; simp [h2]
        · rw [if_neg h2] at h
          rw [if_neg h2]
          by_cases h3 : s.I.toNat + n.toNat > 4096
          · rw [if_pos h3] at h; injection h with h; subst h; right; simp [h3]
          · rw [if_neg h3] at h
            rw [if_neg h3]
            injection h with h; subst h; left; simp
  | _ =>
    left
    simp only [exec, execCls, execJp, execSei, execSnei, execSer, execLdi, execAddi, execLdx, execRnd, execLddt, execLdst] at h
    injection h with h; subst h; simp [State.instrCause]

/-- A tick that executes `i`: its meaning in the fetched state, then the end of the tick. -/
theorem step_runs {s : State} {i : Instr} (h : s.runs i) :
    step s = match exec i s.fetched with
      | .next u => .next u.finishTick
      | .fault f => .fault f
      | .refused r => .refused r := by
  obtain ⟨⟨h1, h2, h3⟩, h4⟩ := h
  unfold step State.startTick
  simp [h1, h2, s.canFetch_iff.2 h3, h4] <;> rfl

/-- A tick that fetches an unknown word. -/
theorem step_unknown {s : State} (h : s.fetches) (hd : decodeWord s.fetchWord = none) :
    step s = .next (s.fetched.raise .unknownOpcode) := by
  obtain ⟨h1, h2, h3⟩ := h
  unfold step State.startTick
  simp [h1, h2, s.canFetch_iff.2 h3, hd]

end Sys2Proof.Machine
end

