-- ==== Sys2Proof/Laws/Fetch.lean ====
section
/-! SUPPORT. A word placed by `withFetchWord` is the word the next step fetches and runs. -/

namespace Sys2Proof.Machine

/-- Taking a word apart and putting it together (R53). -/
theorem bytesOfWord_eq (w : Word) :
    ∃ hi lo, bytesOfWord w = [hi, lo] ∧ wordOfBytes hi lo = w :=
  ⟨_, _, rfl, by
    simp only [wordOfBytes]
    ext i hi
    interval_cases i <;> simp⟩

theorem State.withFetchWord_fetches (s : State) (nbits w : Nat) : (s.withFetchWord nbits w).fetches := by
  refine ⟨rfl, ?_, ?_⟩
  · have h : ∀ l : List Bool, (if l.headD false then [] else l).headD false = false := by
      rintro (_ | ⟨_ | _, l⟩) <;> rfl
    exact h s.ports.stops
  · have h := s.canFetch_iff
    simp only [State.withFetchWord]
    split
    · exact h.1 ‹_›
    · decide

theorem State.fetchWord_withFetchWord (s : State) (hm : s.mem.wf = true) (nbits w : Nat) :
    (s.withFetchWord nbits w).fetchWord = tableWord nbits w := by
  obtain ⟨hi, lo, hb, hw⟩ := bytesOfWord_eq (tableWord nbits w)
  have hp := (s.withFetchWord_fetches nbits w).2.2
  have hmem : (s.withFetchWord nbits w).mem = s.mem.writeAll (s.withFetchWord nbits w).pc.toNat [hi, lo] := by
    rw [← hb]; rfl
  rw [State.fetchWord, Memory.readWord, hmem,
    Memory.read_writeAll hm (by simp [Config.memSize]; omega), Memory.read_writeAll hm (by simp [Config.memSize]; omega),
    if_pos le_rfl, if_pos (by omega), ← hw]
  simp

/-- From memory in its canonical form, the next step runs exactly the instruction the decoder reads from the word. -/
theorem State.withFetchWord_runs (s : State) (hm : s.mem.wf = true) (nbits w : Nat) (i : Instr)
    (h : decodeTableWord nbits w = some i) : (s.withFetchWord nbits w).runs i := by
  refine ⟨s.withFetchWord_fetches nbits w, ?_⟩
  rw [State.fetchWord_withFetchWord s hm]
  obtain ⟨hi, lo, hb, hw⟩ := bytesOfWord_eq (tableWord nbits w)
  rw [decodeTableWord, hb, decode, hw] at h
  cases hd : decodeWord (tableWord nbits w) with
  | none => simp [hd] at h
  | some j => simpa [hd] using h

end Sys2Proof.Machine
end

