-- ==== Sys2Proof/Laws/PerInstr.lean ====
section
/-! SUPPORT. Statements made of every instruction, one lemma per constructor. -/

namespace Sys2Proof.Laws

/-- The row of the opcode map that bears the instruction's mnemonic is there and claims its word (R77). -/
def RowOf.Statement (i : Instr) : Prop :=
  ∃ r ∈ opcodeTable, r.mnemonic = i.mnemonic ∧ r.covers (encode i) = true

theorem RowOf.halt : RowOf.Statement (.halt) :=
  ⟨⟨"HALT", 0x0000, 0xFFFF⟩, by simp [opcodeTable], rfl, by decide⟩

theorem RowOf.cls : RowOf.Statement (.cls) :=
  ⟨⟨"CLS", 0x00E0, 0xFFFF⟩, by simp [opcodeTable], rfl, by decide⟩

theorem RowOf.ret : RowOf.Statement (.ret) :=
  ⟨⟨"RET", 0x00EE, 0xFFFF⟩, by simp [opcodeTable], rfl, by decide⟩

theorem RowOf.jp (nnn : Addr) : RowOf.Statement (.jp nnn) :=
  ⟨⟨"JP", 0x1000, 0xF000⟩, by simp [opcodeTable], rfl, by
    simp only [OpRow.covers, encode, place, beq_iff_eq]
    ext i hi
    interval_cases i <;> simp⟩

theorem RowOf.call (nnn : Addr) : RowOf.Statement (.call nnn) :=
  ⟨⟨"CALL", 0x2000, 0xF000⟩, by simp [opcodeTable], rfl, by
    simp only [OpRow.covers, encode, place, beq_iff_eq]
    ext i hi
    interval_cases i <;> simp⟩

theorem RowOf.sei (x : RegIdx) (nn : Byte) : RowOf.Statement (.sei x nn) :=
  ⟨⟨"SEI", 0x3000, 0xF000⟩, by simp [opcodeTable], rfl, by
    simp only [OpRow.covers, encode, place, beq_iff_eq]
    ext i hi
    interval_cases i <;> simp⟩

theorem RowOf.snei (x : RegIdx) (nn : Byte) : RowOf.Statement (.snei x nn) :=
  ⟨⟨"SNEI", 0x4000, 0xF000⟩, by simp [opcodeTable], rfl, by
    simp only [OpRow.covers, encode, place, beq_iff_eq]
    ext i hi
    interval_cases i <;> simp⟩

theorem RowOf.ser (x y : RegIdx) : RowOf.Statement (.ser x y) :=
  ⟨⟨"SER", 0x5000, 0xF00F⟩, by simp [opcodeTable], rfl, by
    simp only [OpRow.covers, encode, place, beq_iff_eq]
    ext i hi
    interval_cases i <;> simp⟩

theorem RowOf.ldi (x : RegIdx) (nn : Byte) : RowOf.Statement (.ldi x nn) :=
  ⟨⟨"LDI", 0x6000, 0xF000⟩, by simp [opcodeTable], rfl, by
    simp only [OpRow.covers, encode, place, beq_iff_eq]
    ext i hi
    interval_cases i <;> simp⟩

theorem RowOf.addi (x : RegIdx) (nn : Byte) : RowOf.Statement (.addi x nn) :=
  ⟨⟨"ADDI", 0x7000, 0xF000⟩, by simp [opcodeTable], rfl, by
    simp only [OpRow.covers, encode, place, beq_iff_eq]
    ext i hi
    interval_cases i <;> simp⟩

theorem RowOf.ldx (nnn : Addr) : RowOf.Statement (.ldx nnn) :=
  ⟨⟨"LDX", 0xA000, 0xF000⟩, by simp [opcodeTable], rfl, by
    simp only [OpRow.covers, encode, place, beq_iff_eq]
    ext i hi
    interval_cases i <;> simp⟩

theorem RowOf.rnd (x : RegIdx) (nn : Byte) : RowOf.Statement (.rnd x nn) :=
  ⟨⟨"RND", 0xC000, 0xF000⟩, by simp [opcodeTable], rfl, by
    simp only [OpRow.covers, encode, place, beq_iff_eq]
    ext i hi
    interval_cases i <;> simp⟩

theorem RowOf.drw (x y : RegIdx) (n : Nibble) : RowOf.Statement (.drw x y n) :=
  ⟨⟨"DRW", 0xD000, 0xF000⟩, by simp [opcodeTable], rfl, by
    simp only [OpRow.covers, encode, place, beq_iff_eq]
    ext i hi
    interval_cases i <;> simp⟩

theorem RowOf.lddt (x : RegIdx) : RowOf.Statement (.lddt x) :=
  ⟨⟨"LDDT", 0xF015, 0xF0FF⟩, by simp [opcodeTable], rfl, by
    simp only [OpRow.covers, encode, place, beq_iff_eq]
    ext i hi
    interval_cases i <;> simp⟩

theorem RowOf.ldst (x : RegIdx) : RowOf.Statement (.ldst x) :=
  ⟨⟨"LDST", 0xF018, 0xF0FF⟩, by simp [opcodeTable], rfl, by
    simp only [OpRow.covers, encode, place, beq_iff_eq]
    ext i hi
    interval_cases i <;> simp⟩

end Sys2Proof.Laws
end

