-- ==== Sys2Proof/Tests/Slice0.lean ====
section
/-! SUPPORT. Tests: words written out bit by bit from spec/30_encoding.md rule R77, ill-formed terms the checks refuse,
one-tick vectors of spec/95_test_vectors.md (their ids in the comments), and for every statement with hypotheses a state
that meets them all. -/

namespace Sys2Proof.Tests

open Sys2Proof Sys2Proof.Machine

/-! ## Small helpers -/

/-- Reset with a word at 0x200. -/
def placed (w : Nat) : State := State.reset.withFetchWord 16 w

/-- The state with register `k` set. -/
def setX (s : State) (k : RegIdx) (v : Byte) : State := s.writeX k v

/-- The state with the bytes stored from an address. -/
def poke (s : State) (a : Nat) (bs : List Byte) : State := { s with mem := s.mem.writeAll a bs }

/-- The state with one framebuffer row set. -/
def setRow (s : State) (r : Fin 32) (v : FbRow) : State := { s with fb := s.fb.set r.val v r.isLt }

/-- The state with the stop samples of the coming ticks. -/
def stopping (s : State) (l : List Bool) : State := { s with ports := { s.ports with stops := l } }

/-- The state with one draw ready. -/
def drawing (s : State) (d : Draw) : State := { s with ports := { s.ports with draws := [d] } }

/-- What an outcome goes on with; the given state where it stops. -/
def orElse (s : State) : Host.Outcome State Fault Refusal → State
  | .next t => t
  | .fault _ => s
  | .refused _ => s

/-- The state after one tick. -/
def after (s : State) : State := orElse s (step s)

/-- The state after an instruction. -/
def did (i : Instr) (s : State) : State := orElse s (exec i s)

/-- A state ready to draw: `x[0]`, `x[1]`, `I` and a word at 0x200. -/
def drawAt (w : Nat) (vx vy : Byte) (addr : Word) : State := { setX (setX (placed w) 0 vx) 1 vy with I := addr }

/-! ## Decoding: words written out from the encodings of R77 -/

theorem test_decode_halt : decodeWord 0b0000000000000000 = some .halt := by decide
theorem test_decode_cls : decodeWord 0b0000000011100000 = some .cls := by decide
theorem test_decode_ret : decodeWord 0b0000000011101110 = some .ret := by decide
theorem test_decode_jp : decodeWord 0b0001001000110100 = some (.jp 0x234) := by decide
theorem test_decode_call : decodeWord 0b0010101010111100 = some (.call 0xABC) := by decide
theorem test_decode_sei : decodeWord 0b0011101000100010 = some (.sei 10 0x22) := by decide
theorem test_decode_snei : decodeWord 0b0100111100000001 = some (.snei 15 0x01) := by decide
theorem test_decode_ser : decodeWord 0b0101101010110000 = some (.ser 10 11) := by decide
theorem test_decode_ldi : decodeWord 0b0110101000100010 = some (.ldi 10 0x22) := by decide
theorem test_decode_addi : decodeWord 0b0111001111110000 = some (.addi 3 0xF0) := by decide
theorem test_decode_ldx : decodeWord 0b1010001011110000 = some (.ldx 0x2F0) := by decide
theorem test_decode_rnd : decodeWord 0b1100000100001111 = some (.rnd 1 0x0F) := by decide
theorem test_decode_drw : decodeWord 0b1101101010111111 = some (.drw 10 11 15) := by decide
theorem test_decode_lddt : decodeWord 0b1111000100010101 = some (.lddt 1) := by decide
theorem test_decode_ldst : decodeWord 0b1111111100011000 = some (.ldst 15) := by decide

/-- V1: the field extraction of 0xDABF and its bytes in memory. -/
theorem test_fields : fieldOp 0xDABF = 0xD ∧ fieldX 0xDABF = 0xA ∧ fieldY 0xDABF = 0xB ∧ fieldN 0xDABF = 0xF ∧
    fieldNN 0xDABF = 0xBF ∧ fieldNNN 0xDABF = 0xABF ∧ bytesOfWord 0xDABF = [0xDA, 0xBF] := by decide

/-- V1: words of the neighbouring historical machine that decode as nothing here. -/
theorem test_decode_unknown : [0x5AB1, 0x5ABF, 0x00E1, 0x00FE, 0x01E0, 0x0001, 0x0FFF, 0x9120, 0xB200, 0xE19E, 0xF007,
    0xF01E, 0xF055, 0xF165, 0xF029, 0xF033, 0xF00A].all (fun w => decodeWord w == none) = true := by decide

/-- The decoder on bytes: the high byte first, the rest left over, a lone byte refused by name. -/
theorem test_decode_bytes : (match decode [0x6A, 0x22, 0x81] with
    | .ok r => r == (.ldi 10 0x22, [0x81])
    | .error _ => false) = true := by decide
theorem test_decode_rejects : (match decode [0x81, 0x20], decode [0x81] with
    | .error e, .error f => e == .unknownOpcode 0x8120 && f == .truncated
    | _, _ => false) = true := by decide

/-! ## Ill-formed terms the checks refuse -/

/-- A SER with a nonzero low nibble (R80). -/
theorem smoke_ser_nibble : Word.legal 0x5AB1 = false := by decide
/-- A looser CLS (R80, conflict C4). -/
theorem smoke_loose_cls : Word.legal 0x0120 = false := by decide
/-- A primary opcode with no row (R78). -/
theorem smoke_no_row : Word.legal 0x8120 = false := by decide
/-- An 0xF word with another low byte (R80). -/
theorem smoke_loose_timer : Word.legal 0xF016 = false := by decide
/-- A byte too many for memory (R223), and the greatest image (R222). -/
theorem smoke_long_image : imageFits (List.replicate 3585 0) = false := by
  rw [imageFits, List.length_replicate]
  rfl
theorem smoke_greatest_image : imageFits (List.replicate 3584 0) = true := by
  rw [imageFits, List.length_replicate]
  rfl
/-- Memory out of order, with a zero byte, or past the end is not in canonical form. -/
theorem smoke_memory_order : Memory.wf [(5, 1), (3, 1)] = false := by decide
theorem smoke_memory_zero : Memory.wf [(3, 0)] = false := by decide
theorem smoke_memory_end : Memory.wf [(4096, 1)] = false := by decide
theorem smoke_memory_ok : Memory.wf [(3, 1), (4095, 0xFF)] = true := by decide

/-! ## Memory, reset and load -/

/-- S2. -/
theorem test_launch_bytes : (match launch [0x12, 0x34] with
    | .ok s => s.mem == [(0x200, 0x12), (0x201, 0x34)] && s.fetchWord == 0x1234 && s.pc == 0x0200
    | .error _ => false) = true := by decide
/-- Writing 0x00 takes the entry out again. -/
theorem test_write_zero : Memory.write [(3, 1), (5, 2)] 3 0 = [(5, 2)] := by decide

/-! ## One tick of each instruction -/

/-- V6 HaltZero: the empty image halts at 0x200, and a loaded timer is not decremented (V5.5). -/
theorem test_halt : (after State.reset).status = (.halted, 1, 0x0000, 0x0200) := by decide
theorem test_halt_timer : (after { placed 0x0000 with dt := 4 }).dt = 4 := by decide
/-- S6. -/
theorem test_cls : (after (setRow (placed 0x00E0) 31 0xFFFFFFFFFFFFFFFF)).fb = Frame.dark ∧
    (after (setRow (placed 0x00E0) 31 0xFFFFFFFFFFFFFFFF)).ports.frames = [Frame.dark] := by decide
/-- V2.8, and the second tick of S4. -/
theorem test_ret_empty : (after (placed 0x00EE)).status = (.halted, 6, 0x00EE, 0x0200) := by decide
theorem test_ret : (did .ret (did (.call 0x234) (placed 0x2234))).pc = 0x0200 ∧
    (did .ret (did (.call 0x234) (placed 0x2234))).stack = State.reset.stack := by decide
/-- S3, V2.3. -/
theorem test_jp : (after (placed 0x1234)).pc = 0x0234 := by decide
theorem test_jp_past : (after (after (placed 0x1FFF))).status = (.halted, 4, 0x1FFF, 0x0FFF) := by decide
/-- S4; V2.7. -/
theorem test_call : (after (placed 0x2234)).readSlot 0 = 0x0200 ∧ (after (placed 0x2234)).sp = 1 ∧
    (after (placed 0x2234)).pc = 0x0234 := by decide
theorem test_call_full : (after { placed 0x2400 with sp := 15 }).status = (.halted, 5, 0x2400, 0x0200) := by decide
/-- S5. -/
theorem test_sei : (after (setX (placed 0x3A22) 10 0x22)).pc = 0x0204 ∧
    (after (setX (placed 0x3A22) 10 0x21)).pc = 0x0202 := by decide
/-- V2.21: the skipped illegal word raises nothing. -/
theorem test_sei_over_illegal : (after (poke (placed 0x3000) 0x202 [0x81, 0x20])).status =
    (.running, 0, 0x3000, 0x0204) := by decide
/-- S5. -/
theorem test_snei : (after (setX (placed 0x4A22) 10 0x22)).pc = 0x0202 ∧
    (after (setX (placed 0x4A22) 10 0x21)).pc = 0x0204 := by decide
/-- V2.15, V2.16. -/
theorem test_ser : (after (setX (setX (placed 0x5120) 1 7) 2 7)).pc = 0x0204 ∧
    (after (setX (setX (placed 0x5120) 1 7) 2 8)).pc = 0x0202 := by decide
/-- V3.1, V3.2. -/
theorem test_ldi : (after (placed 0x6A22)).readX 10 = 0x22 ∧ (after (placed 0x6A22)).pc = 0x0202 := by decide
theorem test_ldi_last : (after (setX (placed 0x6FFF) 15 0x55)).readX 15 = 0xFF := by decide
/-- V3.8, V3.4. -/
theorem test_addi_wraps : (after (setX (placed 0x7E01) 14 0xFF)).readX 14 = 0 ∧
    (after (setX (placed 0x7E01) 14 0xFF)).readX 15 = 0 := by decide
theorem test_addi_minus : (after (placed 0x73FF)).readX 3 = 0xFF := by decide
/-- V3.12. -/
theorem test_ldx : (after { placed 0xA2F0 with I := 0x0FFF }).I = 0x02F0 := by decide
/-- V3.13, V3.15. -/
theorem test_rnd : (after (setX (drawing (placed 0xC10F) 0xA7) 1 0xEE)).readX 1 = 0x07 := by decide
theorem test_rnd_greatest : (after (drawing (placed 0xC1FF) 0xFE)).readX 1 = 0xFE ∧
    (after (drawing (placed 0xC1FF) 0xFE)).ports.draws = [] := by decide
/-- V4.2: two rows, placed at column 10, row 5. -/
theorem test_drw : (after (poke (drawAt 0xD012 10 5 0x300) 0x300 [0x3C, 0xC3])).fb.toList =
    List.replicate 5 0 ++ [0x000F000000000000, 0x0030C00000000000] ++ List.replicate 25 0 := by decide
/-- V4.5: OR, not XOR, and no collision flag. -/
theorem test_drw_or : (after (setRow (poke (drawAt 0xD011 4 0 0x300) 0x300 [0xF0]) 0 0x0F00000000000000)).fb[0] =
    0x0F00000000000000 ∧
    (after (setRow (poke (drawAt 0xD011 4 0 0x300) 0x300 [0xF0]) 0 0x0F00000000000000)).readX 15 = 0 := by decide
/-- V5.2, the first two ticks. -/
theorem test_lddt : (after (setX (placed 0xF015) 0 2)).dt = 1 ∧ (after (setX (placed 0xF015) 0 2)).st = 0 := by decide
/-- V5.3, the first tick. -/
theorem test_ldst : (after (setX (placed 0xF018) 0 0xFF)).st = 254 ∧ (after (setX (placed 0xF018) 0 0xFF)).dt = 0 := by
  decide

/-! ## Terminal events and their order (V6) -/

theorem test_stop_before_fetch_bound : (after (stopping { State.reset with pc := 0x0FFF } [true])).cause =
    .externalStop := by decide
theorem test_stop_before_halt : (after (stopping State.reset [true])).cause = .externalStop := by decide
theorem test_stop_later : (after (stopping (placed 0x1200) [false, true])).ports.stops = [true] := by decide
theorem test_unknown : (after (placed 0x8120)).status = (.halted, 3, 0x8120, 0x0200) := by decide
/-- V4.14, V4.15, V4.13: the order inside DRW. -/
theorem test_drw_priority : (after (drawAt 0xD015 60 40 0xFFF)).cause = .spriteXRange ∧
    (after (drawAt 0xD015 3 30 0xFFF)).cause = .spriteRowRange ∧
    (after (drawAt 0xD012 0 0 0xFFF)).cause = .spriteMemBounds := by decide
/-- P7: code at an odd address. -/
theorem test_odd_pc : (after (after (poke (placed 0x1203) 0x202 [0xFF, 0x61, 0x07]))).readX 1 = 7 ∧
    (after (after (poke (placed 0x1203) 0x202 [0xFF, 0x61, 0x07]))).pc = 0x0205 := by decide
/-- R202: the trace with the toggle on and off. -/
theorem test_trace : (after { placed 0x6A22 with ports := { Ports.reset with debug := true } }).ports.trace = [0x6A22] ∧
    (after (placed 0x6A22)).ports.trace = [] := by decide

/-! ## Witnesses: the hypotheses of each statement can be met -/

theorem wit_IllegalWords : (placed 0x5AB1).fetches ∧ decodeWord (placed 0x5AB1).fetchWord = none := by
  unfold State.fetches; decide
/-- One word at each end of every tabled range. -/
theorem wit_IllegalWords_ends : [0x0001, 0x00DF, 0x00E1, 0x00ED, 0x00EF, 0x0FFF, 0x5001, 0x5FFF, 0x8000, 0x8FFF, 0x9000,
    0x9FFF, 0xB000, 0xBFFF, 0xE000, 0xEFFF, 0xF000, 0xF014, 0xF016, 0xF017, 0xF019, 0xFFFF].all
      (fun w => decodeWord w == none) = true := by decide
theorem wit_EncodeOfDecode : decodeWord 0xFF18 = some (.ldst 15) := by decide
theorem wit_FetchIsBigEndian : launch [0x12, 0x34] = .ok { State.reset with mem := [(0x200, 0x12), (0x201, 0x34)] } := rfl
theorem wit_FetchWrites : ({ placed 0x6A22 with ports := { Ports.reset with debug := true } } : State).fetches := by
  unfold State.fetches; decide
/-- A fetch at the last address there is. -/
theorem wit_FetchWrites_top : ({ State.reset with pc := 0x0FFE } : State).fetches := by unfold State.fetches; decide
theorem wit_StepRuns : (placed 0x6A22).runs (.ldi 10 0x22) := by unfold State.runs State.fetches; decide
theorem wit_Halted : (after State.reset).run = .halted := by decide
theorem wit_EveryRunning : (placed 0x2ABC).run = .running := by decide
theorem wit_StopRequest : (stopping State.reset [true]).run = .running ∧
    (stopping State.reset [true]).ports.stops.head? = some true := by decide
theorem wit_FetchPast : (let s : State := { State.reset with pc := 0x0FFF }
    s.run = .running ∧ s.stopAsserted = false ∧ 0xFFE < s.pc.toNat) := by decide
theorem wit_UnknownWord_known : (placed 0x1234).fetches ∧ decodeWord (placed 0x1234).fetchWord = some (.jp 0x234) := by
  unfold State.fetches; decide
theorem wit_UnknownWord_last : (placed 0x8120).fetches ∧ decodeWord (placed 0x8120).fetchWord = none ∧
    step (placed 0x8120) = .next (after (placed 0x8120)) :=
  ⟨by unfold State.fetches; decide, by decide, rfl⟩
theorem wit_TerminalEvent_fetched : step (placed 0x00EE) = .next (after (placed 0x00EE)) ∧
    (after (placed 0x00EE)).run = .halted ∧ (placed 0x00EE).fetches :=
  ⟨rfl, by decide, by unfold State.fetches; decide⟩
theorem wit_TerminalEvent_unfetched : (let s := stopping State.reset [true]
    step s = .next (after s) ∧ (after s).run = .halted ∧ ¬ s.fetches) :=
  ⟨rfl, by decide, by unfold State.fetches; decide⟩
theorem wit_TerminalEvent_none : step (placed 0x1200) = .next (after (placed 0x1200)) ∧
    (after (placed 0x1200)).run = .running := ⟨rfl, by decide⟩
theorem wit_FrameDelivered : (placed 0x00E0).runs .cls ∧ (placed 0x00E0).redraw = false ∧
    Completes (placed 0x00E0) (after (placed 0x00E0)) :=
  ⟨by unfold State.runs State.fetches; decide, by decide, rfl, by decide⟩
theorem wit_FrameDelivered_none : isDisplay (.ldi 10 0x22) = false ∧ (placed 0x6A22).runs (.ldi 10 0x22) ∧
    Completes (placed 0x6A22) (after (placed 0x6A22)) :=
  ⟨by decide, by unfold State.runs State.fetches; decide, rfl, by decide⟩
/-- A tick ended by HALT, and ticks that run no instruction: stop request, fetch bound, unknown word. -/
theorem wit_Timers_halted : ∀ s ∈ [placed 0x0000, stopping State.reset [true], { State.reset with pc := 0x0FFF },
    placed 0x8120], step s = .next (after s) ∧ (after s).run = .halted := by
  simp only [List.forall_mem_cons]
  exact ⟨⟨rfl, by decide⟩, ⟨rfl, by decide⟩, ⟨rfl, by decide⟩, ⟨rfl, by decide⟩, by simp⟩
theorem wit_Timers_lddt : (placed 0xF015).runs (.lddt 0) ∧ Completes (placed 0xF015) (after (placed 0xF015)) :=
  ⟨by unfold State.runs State.fetches; decide, rfl, by decide⟩
theorem wit_Timers_ldst : (placed 0xF118).runs (.ldst 1) ∧ Completes (placed 0xF118) (after (placed 0xF118)) ∧
    ∀ x, (.ldst 1 : Instr) ≠ .lddt x :=
  ⟨by unfold State.runs State.fetches; decide, ⟨rfl, by decide⟩, by simp⟩
theorem wit_NeverRead : step (placed 0xF015) = .next (after (placed 0xF015)) := rfl
theorem wit_DebugToggle : step (placed 0x6A22) = .next (after (placed 0x6A22)) ∧ (placed 0x6A22).fetches :=
  ⟨rfl, by unfold State.fetches; decide⟩
theorem wit_PcAfter_skip : (setX (placed 0x3A22) 10 0x22).runs (.sei 10 0x22) ∧
    Completes (setX (placed 0x3A22) 10 0x22) (after (setX (placed 0x3A22) 10 0x22)) :=
  ⟨by unfold State.runs State.fetches; decide, rfl, by decide⟩
theorem wit_PcAfter_call : (placed 0x2FFF).runs (.call 0xFFF) ∧
    Completes (placed 0x2FFF) (after (placed 0x2FFF)) := ⟨by unfold State.runs State.fetches; decide, rfl, by decide⟩
theorem wit_PcAfter_ret : (let s : State := { placed 0x00EE with sp := 1, stack := State.reset.stack.set 0 0x0300 }
    s.runs .ret ∧ Completes s (after s)) := ⟨by unfold State.runs State.fetches; decide, rfl, by decide⟩
theorem wit_Registers : step (placed 0x6FFF) = .next (after (placed 0x6FFF)) ∧
    (after (placed 0x6FFF)).x[15] ≠ (placed 0x6FFF).x[15] := ⟨rfl, by decide⟩
theorem wit_Special_I : step (placed 0xAFFF) = .next (after (placed 0xAFFF)) ∧
    (after (placed 0xAFFF)).I ≠ (placed 0xAFFF).I := ⟨rfl, by decide⟩
theorem wit_Special_stack : step (placed 0x2234) = .next (after (placed 0x2234)) ∧
    (after (placed 0x2234)).sp ≠ (placed 0x2234).sp := ⟨rfl, by decide⟩
theorem wit_Special_fb : (let s := setRow (placed 0x00E0) 0 1
    step s = .next (after s) ∧ (after s).fb ≠ s.fb) := ⟨rfl, by decide⟩
theorem wit_Special_draw : (let s := drawing (placed 0xC1FF) 3
    step s = .next (after s) ∧ (after s).ports.drawCount ≠ s.ports.drawCount) := ⟨rfl, by decide⟩
theorem wit_Memory : step (placed 0x6A22) = .next (after (placed 0x6A22)) := rfl
theorem wit_HaltEnds : State.reset.fetches ∧ State.reset.fetchWord = 0x0000 := by unfold State.fetches; decide
theorem wit_Ret : ({ State.reset with sp := 15 } : State).sp ≠ 0 ∧ ({ State.reset with sp := 1 } : State).sp ≠ 0 ∧
    State.reset.sp = 0 := by decide
theorem wit_Jp_self : (0x200 : Addr).toNat = State.reset.pc.toNat := by decide
theorem wit_Jp_low : (placed 0x11FE).runs (.jp 0x1FE) ∧ step (placed 0x11FE) = .next (after (placed 0x11FE)) ∧
    (after (placed 0x11FE)).stopAsserted = false ∧ (0x1FE : Addr).toNat ≤ 0x1FE ∧
    ∀ a ≤ 0x1FF, (placed 0x11FE).mem.read a = 0 :=
  ⟨by unfold State.runs State.fetches; decide, rfl, by decide, by decide, fun a ha => by
    have h : (placed 0x11FE).mem = [(0x200, 0x11), (0x201, 0xFE)] := by decide
    rw [h, Memory.read, if_neg (by omega), Memory.read, if_neg (by omega), Memory.read]⟩
theorem wit_Jp_top : (placed 0x1FFF).runs (.jp 0xFFF) ∧ step (placed 0x1FFF) = .next (after (placed 0x1FFF)) ∧
    (after (placed 0x1FFF)).stopAsserted = false ∧ (0xFFF : Addr).toNat = 0xFFF :=
  ⟨by unfold State.runs State.fetches; decide, rfl, by decide, by decide⟩
theorem wit_Call : ({ State.reset with sp := 14 } : State).sp ≠ 15 ∧ ({ State.reset with sp := 15 } : State).sp = 15 := by
  decide
theorem wit_RetAfterCall : State.reset.sp ≠ 15 ∧ State.reset.readSlot State.reset.sp = 0 ∧
    exec (.call 0x234) State.reset = .next (did (.call 0x234) State.reset) := ⟨by decide, by decide, rfl⟩
/-- V2.19: a skip taken at 0xFFC. -/
theorem wit_Sei_top : (let s : State := poke { State.reset with pc := 0x0FFC } 0xFFC [0x30, 0x00]
    s.runs (.sei 0 0x00) ∧ s.readX 0 = 0x00 ∧ 0xFFC ≤ s.pc.toNat ∧ step s = .next (after s) ∧
      (after s).stopAsserted = false) :=
  ⟨by unfold State.runs State.fetches; decide, by decide, by decide, rfl, by decide⟩
theorem wit_Ser_nibble : ((0x5AB1 : Word).toNat / 4096 = 5 ∧ (0x5AB1 : Word).toNat % 16 ≠ 0) ∧
    (0x9120 : Word).toNat / 4096 = 9 := by decide
theorem wit_Rnd_ready : (drawing State.reset 254).ports.draws.head? = some 254 ∧
    exec (.rnd 1 0xFF) (drawing State.reset 254) = .next (did (.rnd 1 0xFF) (drawing State.reset 254)) :=
  ⟨by decide, rfl⟩
theorem wit_Rnd_submask : (0x80 : Byte) &&& ~~~(0xF0 : Byte) = 0 ∧ (0x80 : Byte) ≠ 0xFF ∧
    (0xFE : Byte) &&& ~~~(0xFF : Byte) = 0 ∧ (0xFE : Byte) ≠ 0xFF := by decide
theorem wit_Cls_runs : (placed 0x00E0).runs .cls := by unfold State.runs State.fetches; decide
theorem wit_Cls_darkens : (let s := setRow (placed 0x00E0) 31 1
    step s = .next (after s) ∧ Frame.pixel s.fb 63 31 = true ∧ Frame.pixel (after s).fb 63 31 = false) :=
  ⟨rfl, by decide, by decide⟩
/-- V4.3: every bound met with equality; and a sprite of no rows fits anywhere (V4.16). -/
theorem wit_Drw_fits : (drawAt 0xD011 56 31 0xFFF).fits 0 1 1 ∧ (drawAt 0xD010 200 200 0xFFF).fits 0 1 0 := by
  unfold State.fits; decide
theorem wit_Drw_pixels : (let s := poke (drawAt 0xD011 56 31 0xFFF) 0xFFF [0x81]
    s.fits 0 1 1 ∧ exec (.drw 0 1 1) s = .next (did (.drw 0 1 1) s)) := ⟨by unfold State.fits; decide, rfl⟩
/-- V4.7, V4.10, V4.13: each fault at its boundary, the earlier conditions met with equality. -/
theorem wit_Drw_faults : 1 ≤ (1 : Nibble).toNat ∧ 56 < ((drawAt 0xD011 57 0 0x300).readX 0).toNat ∧
    (((drawAt 0xD011 56 32 0xFFF).readX 0).toNat ≤ 56 ∧
      32 < ((drawAt 0xD011 56 32 0xFFF).readX 1).toNat + (1 : Nibble).toNat) ∧
    (((drawAt 0xD012 56 30 0xFFF).readX 0).toNat ≤ 56 ∧
      ((drawAt 0xD012 56 30 0xFFF).readX 1).toNat + (2 : Nibble).toNat ≤ 32 ∧
      4096 < (drawAt 0xD012 56 30 0xFFF).I.toNat + (2 : Nibble).toNat) := by decide
theorem wit_DrwOfNoRows : (drawAt 0xD010 200 200 0xFFF).runs (.drw 0 1 0) := by
  unfold State.runs State.fetches; decide
theorem wit_DrwOnlyLights : (let s := setRow (poke (drawAt 0xD011 4 0 0x300) 0x300 [0xF0]) 0 0x0F00000000000000
    exec (.drw 0 1 1) s = .next (did (.drw 0 1 1) s) ∧ Frame.pixel s.fb 4 0 = true ∧
    (s.mem.read (s.I.toNat + 0)).getLsbD (7 - 7) = false ∧
    exec (.drw 0 1 1) (did (.drw 0 1 1) s) = .next (did (.drw 0 1 1) (did (.drw 0 1 1) s))) :=
  ⟨rfl, by decide, by decide, rfl⟩
theorem wit_DrawnPixels : step (drawAt 0xD011 4 0 0x300) = .next (after (drawAt 0xD011 4 0 0x300)) := rfl
/-- R170's example: `x[2] = 3`; two more completed ticks follow. -/
theorem wit_Lddt : (let s := poke (setX (placed 0xF215) 2 3) 0x202 [0x61, 0x00, 0x61, 0x00]
    s.runs (.lddt 2) ∧ Completes s (after s) ∧
    Ticks (fun z => ∀ y, ¬ z.runs (.lddt y)) 2 (after s) (after (after (after s)))) := by
  refine ⟨by unfold State.runs State.fetches; decide, ⟨rfl, by decide⟩, .more ?_ ⟨rfl, by decide⟩
    (.more ?_ ⟨rfl, by decide⟩ (.none _))⟩ <;> unfold State.runs State.fetches <;> decide
theorem wit_Ldst : (let s := poke (setX (placed 0xF018) 0 2) 0x202 [0x61, 0x00]
    s.runs (.ldst 0) ∧ Completes s (after s) ∧
    Ticks (fun z => ∀ y, ¬ z.runs (.ldst y)) 1 (after s) (after (after s)) ∧
    exec (.lddt 0) s = .next (did (.lddt 0) s)) := by
  refine ⟨by unfold State.runs State.fetches; decide, ⟨rfl, by decide⟩, .more ?_ ⟨rfl, by decide⟩ (.none _), rfl⟩
  unfold State.runs State.fetches
  decide
theorem wit_Frame_jump : exec (.jp 0x234) State.reset = .next (did (.jp 0x234) State.reset) := rfl
theorem wit_Frame_call : exec (.call 0x234) State.reset = .next (did (.call 0x234) State.reset) ∧
    State.reset.sp ≠ 15 := ⟨rfl, by decide⟩
theorem wit_Frame_ret : (let s : State := { State.reset with sp := 1 }
    exec .ret s = .next (did .ret s) ∧ s.sp ≠ 0 ∧ exec .ret State.reset = .next (did .ret State.reset) ∧
      State.reset.sp = 0) := ⟨rfl, by decide, rfl, by decide⟩
theorem wit_Frame_register : exec (.rnd 1 0xFF) (drawing State.reset 3) =
    .next (did (.rnd 1 0xFF) (drawing State.reset 3)) := rfl
theorem wit_Frame_index : exec (.ldx 0xFFF) State.reset = .next (did (.ldx 0xFFF) State.reset) := rfl
theorem wit_Frame_display : isDisplay (.drw 0 1 1) = true ∧
    exec (.drw 0 1 1) (drawAt 0xD011 57 0 0x300) = .next (did (.drw 0 1 1) (drawAt 0xD011 57 0 0x300)) ∧
    ¬ (drawAt 0xD011 57 0 0x300).fits 0 1 1 ∧ (drawAt 0xD011 56 0 0x300).fits 0 1 1 :=
  ⟨by decide, rfl, by unfold State.fits; decide, by unfold State.fits; decide⟩
theorem wit_Frame_halt : exec .halt State.reset = .next (did .halt State.reset) := rfl
theorem wit_MostComplete : (.cls : Instr) ≠ .halt ∧ (.cls : Instr) ≠ .ret ∧ (∀ nnn, (.cls : Instr) ≠ .call nnn) ∧
    ∀ x y n, (.cls : Instr) ≠ .drw x y n := by simp
theorem wit_EntryPoint : launch [] = .ok State.reset := rfl
theorem wit_LaunchState : (List.replicate 3584 (0x60 : Byte)).length ≤ 3584 := by rw [List.length_replicate]
theorem wit_Overlong : 3584 < (List.replicate 3585 (0x60 : Byte)).length := by
  rw [List.length_replicate]
  omega
theorem wit_Invariants : State.reset.Inv ∧ step State.reset = .next (after State.reset) :=
  ⟨⟨by decide, by decide, by decide, by decide, by decide, by decide, by decide, by decide⟩, rfl⟩

end Sys2Proof.Tests
end

section
/-! PROOFS. What an instruction that raises nothing writes, the two ways a tick ends, and from them the statements on
who writes `pc` and the general registers (spec/10_state.md). -/

namespace Sys2Proof.Machine

/-! ## The effect of an instruction that raises no terminal event -/

/-- The state an instruction leaves if it has no terminal event in this one; HALT always has one and writes nothing
(R95). -/
def State.effect (s : State) : Instr → State
  | .halt => s
  | .cls => (s.writeFb Frame.dark).setRedraw.advance 2
  | .ret => s.popPc
  | .jp nnn => s.writePc (zext16 nnn)
  | .call nnn => (s.push s.pc).writePc (zext16 nnn)
  | .sei x nn => s.advance (skipBy (s.readX x == nn))
  | .snei x nn => s.advance (skipBy (s.readX x != nn))
  | .ser x y => s.advance (skipBy (s.readX x == s.readX y))
  | .ldi x nn => (s.writeX x nn).advance 2
  | .addi x nn => (s.writeX x (s.readX x + nn)).advance 2
  | .ldx nnn => (s.writeI (zext16 nnn)).advance 2
  | .rnd x nn => ((s.writeX x (nn &&& Draw.toByte s.ports.nextDraw)).writePorts s.ports.consumeDraw).advance 2
  | .drw x y n => (s.writeFb (s.drawn x y n)).setRedraw.advance 2
  | .lddt x => (s.writeDt (s.readX x)).advance 2
  | .ldst x => (s.writeSt (s.readX x)).advance 2

/-- A DRW has no terminal event exactly when the sprite fits (R152, R157). -/
theorem State.instrCause_drw_eq_none (s : State) (x y : RegIdx) (n : Nibble) :
    s.instrCause (.drw x y n) = .none ↔
      spriteFault (s.readX x).toNat (s.readX y).toNat n.toNat s.I.toNat = none := by
  rw [spriteFault_eq_none, State.instrCause]
  split_ifs <;> simp <;> omega

/-- `exec` of an instruction that has no terminal event. -/
theorem exec_eq_effect {i : Instr} {s : State} (h : s.instrCause i = .none) : exec i s = .next (s.effect i) := by
  cases i with
  | halt => simp [State.instrCause] at h
  | ret =>
    have hsp : s.sp ≠ 0 := by intro hsp; simp [State.instrCause, hsp] at h
    exact if_neg hsp
  | call nnn =>
    have hsp : s.sp ≠ 15 := by intro hsp; simp [State.instrCause, hsp] at h
    exact if_neg hsp
  | drw x y n =>
    have hfit := (s.instrCause_drw_eq_none x y n).1 h
    simp [exec, execDrw, hfit, State.effect]
  | _ => rfl

@[simp] theorem State.effect_run (s : State) (i : Instr) : (s.effect i).run = s.run := by
  cases i <;> rfl

/-- What a skip adds to `pc` (R25). -/
theorem add_skipBy (p : Word) (c : Bool) : p + skipBy c = if c then p + 4 else p + 2 := by
  cases c <;> rfl

/-- A push stores its value in the slot at `sp` (R113). -/
theorem State.readSlot_push (s : State) (v : Word) : (s.push v).readSlot s.sp = v := by
  simp [State.readSlot]

/-- Only the register that X names differs after a write of it (R20). -/
theorem State.toNat_eq_of_writeX_ne {s : State} {x : RegIdx} {v : Byte} {k : Nat} {hk : k < 16}
    (h : (s.writeX x v).x[k] ≠ s.x[k]) : x.toNat = k := by
  by_contra hne
  exact h (Vector.getElem_set_ne x.isLt hk hne)

/-- The instructions that write a general register, and the one each writes (R21, R22). -/
theorem State.writer_of_effect_x_ne {s : State} {i : Instr} {k : Nat} {hk : k < 16}
    (h : (s.effect i).x[k] ≠ s.x[k]) :
    ∃ (x : RegIdx) (nn : Byte), x.toNat = k ∧ (i = .ldi x nn ∨ i = .addi x nn ∨ i = .rnd x nn) := by
  cases i with
  | ldi x nn => exact ⟨x, nn, State.toNat_eq_of_writeX_ne h, .inl rfl⟩
  | addi x nn => exact ⟨x, nn, State.toNat_eq_of_writeX_ne h, .inr (.inl rfl)⟩
  | rnd x nn => exact ⟨x, nn, State.toNat_eq_of_writeX_ne h, .inr (.inr rfl)⟩
  | _ => exact absurd rfl h

/-! ## The two ways a tick ends -/

@[simp] theorem State.fetched_readX (s : State) (x : RegIdx) : s.fetched.readX x = s.readX x := rfl
@[simp] theorem State.fetched_readSlot (s : State) (k : BitVec 4) : s.fetched.readSlot k = s.readSlot k := rfl

@[simp] theorem State.finishTick_readSlot (s : State) (k : BitVec 4) : s.finishTick.readSlot k = s.readSlot k := by
  simp [State.readSlot]

/-- A tick ends in a terminal event, which writes only `run`, `cause`, `ir` and ports (R184, R185), or it runs an
instruction that has no terminal event and finishes. -/
theorem step_terminal_or_effect {s t : State} (h : step s = .next t) :
    (∃ (w : Word) (p : Ports) (c : Cause), t = ((s.writeIr w).writePorts p).raise c) ∨
      ∃ i, s.runs i ∧ t = (s.fetched.effect i).finishTick := by
  obtain ⟨hrun, ⟨-, rfl⟩ | ⟨-, -, rfl⟩ | ⟨-, -, -, rfl⟩ | ⟨hstop, hpc, i, u, hdec, hexec, rfl⟩⟩ := step_cases h
  · exact .inl ⟨_, _, _, rfl⟩
  · exact .inl ⟨_, _, _, rfl⟩
  · exact .inl ⟨_, _, _, rfl⟩
  · rcases exec_cause hexec with ⟨hnone, -⟩ | ⟨-, rfl⟩
    · rw [exec_eq_effect hnone] at hexec
      cases hexec
      exact .inr ⟨i, ⟨⟨hrun, hstop, hpc⟩, hdec⟩, rfl⟩
    · exact .inl ⟨_, _, _, State.finishTick_halted rfl⟩

/-- A tick runs one instruction. -/
theorem State.runs_unique {s : State} {i j : Instr} (hi : s.runs i) (hj : s.runs j) : i = j :=
  Option.some.inj (hi.2.symm.trans hj.2)

/-- A completed tick: the effect of its instruction in the fetched state, then the end of the tick (R101). -/
theorem completes_eq_effect {s t : State} {i : Instr} (hi : s.runs i) (h : Completes s t) :
    t = (s.fetched.effect i).finishTick := by
  obtain ⟨hstep, hrun⟩ := h
  rcases step_terminal_or_effect hstep with ⟨w, p, c, rfl⟩ | ⟨j, hj, rfl⟩
  · simp at hrun
  · rw [State.runs_unique hi hj]

/-- A tick that ends HALTED leaves `pc` at the instruction (R184, R185). -/
theorem step_halted_pc {s t : State} (h : step s = .next t) (hrun : t.run = .halted) : t.pc = s.pc := by
  rcases step_terminal_or_effect h with ⟨w, p, c, rfl⟩ | ⟨i, hi, rfl⟩
  · rfl
  · obtain ⟨⟨hrunning, -⟩, -⟩ := hi
    simp [hrunning] at hrun

/-! ## The statements -/

/-- Settles O23, from the effect of each instruction: only the three skips need their condition rewritten. -/
theorem pcAfterEachInstruction : Obligations.PcAfterEachInstruction := by
  refine ⟨fun s t => step_halted_pc, fun s t i hi h => ?_, fun s t nnn hi h => ?_⟩
  · rw [completes_eq_effect hi h, State.finishTick_pc]
    cases i with
    | sei x nn => simp [State.effect, add_skipBy]
    | snei x nn => simp [State.effect, add_skipBy]
    | ser x y => simp [State.effect, add_skipBy]
    | _ => rfl
  · rw [completes_eq_effect hi h, State.finishTick_readSlot]
    exact s.fetched.readSlot_push s.pc

/-- Settles O24: a terminal event keeps the registers, and the effect of an instruction names its writer. -/
theorem registersAreWrittenOnlyByTheirInstructions : Obligations.RegistersAreWrittenOnlyByTheirInstructions := by
  intro s t k hk h hne
  rcases step_terminal_or_effect h with ⟨w, p, c, rfl⟩ | ⟨i, hi, rfl⟩
  · exact absurd rfl hne
  · simp only [State.finishTick_x] at hne
    obtain ⟨x, nn, hx, rfl | rfl | rfl⟩ := State.writer_of_effect_x_ne (s := s.fetched) hne
    · exact ⟨x, nn, hx, .inl hi⟩
    · exact ⟨x, nn, hx, .inr (.inl hi)⟩
    · exact ⟨x, nn, hx, .inr (.inr hi)⟩

end Sys2Proof.Machine
end

section
/-! PROOFS. What a load leaves in memory and in the launch state (spec/70_reset_and_hazards.md), and from it the
statement on the byte order of the fetch (spec/20_memory.md). -/

namespace Sys2Proof.Machine

/-! ## Load -/

/-- An image has a launch state exactly if it fits, and then it is reset with the image in memory (R220, R222, R223). -/
theorem launch_eq_ok_iff {img : List Byte} {s : State} :
    launch img = .ok s ↔
      img.length ≤ Config.maxImage ∧ s = { State.reset with mem := Memory.ofImage img } := by
  rw [launch]
  split <;> simp_all [imageFits, eq_comm]

/-- Memory after a load: the image from 0x200, 0x00 everywhere else (R222, R226). -/
theorem Memory.read_ofImage {img : List Byte} (hfit : img.length ≤ Config.maxImage) (a : Nat) :
    (Memory.ofImage img).read a =
      if Config.loadBase ≤ a then (img[a - Config.loadBase]?).getD 0 else 0 := by
  have hend : Config.loadBase + img.length ≤ Config.memSize := Nat.add_le_add_left hfit Config.loadBase
  exact Memory.read_writeAll rfl hend a

/-- The first fetch after a load takes the first two bytes of the image, the first in the high half (R53, R221). -/
theorem fetchWord_of_launch {b0 b1 : Byte} {rest : List Byte} {s : State}
    (h : launch (b0 :: b1 :: rest) = .ok s) : s.fetchWord = wordOfBytes b0 b1 := by
  obtain ⟨hfit, rfl⟩ := launch_eq_ok_iff.1 h
  have hhi : (Memory.ofImage (b0 :: b1 :: rest)).read 0x200 = b0 := Memory.read_ofImage hfit 0x200
  have hlo : (Memory.ofImage (b0 :: b1 :: rest)).read 0x201 = b1 := Memory.read_ofImage hfit 0x201
  exact congrArg₂ wordOfBytes hhi hlo

/-! ## The statement -/

/-- Settles O7: the shift and OR are the definition of a word read, and the two clauses on a loaded image are the first
fetch after a load. -/
theorem fetchIsBigEndian : Obligations.FetchIsBigEndian := by
  refine ⟨fun s => rfl, fun b0 b1 rest s h => ?_, fun s h => ?_⟩
  · rw [fetchWord_of_launch h, wordOfBytes_toNat]
  · rw [fetchWord_of_launch h]
    decide

end Sys2Proof.Machine
end

section
/-! PROOFS. What a fetch writes and what of it is left at the end of the tick, and from it the statement on the
instruction register and the trace (spec/40_cycle.md). -/

namespace Sys2Proof.Machine

/-! ## The fetch -/

/-- Showing a word writes the trace only (R202). -/
theorem Ports.showWord_eq (p : Ports) (w : Word) :
    p.showWord w = { p with trace := if p.debug then w :: p.trace else p.trace } := by
  unfold Ports.showWord
  split <;> rfl

@[simp] theorem State.fetched_trace (s : State) :
    s.fetched.ports.trace = if s.ports.debug then s.fetchWord :: s.ports.trace else s.ports.trace := by
  rw [State.fetched_eq, Ports.showWord_eq]

/-! ## The end of the tick -/

@[simp] theorem State.finishTick_trace (s : State) : s.finishTick.ports.trace = s.ports.trace := by
  unfold State.finishTick State.deliverFrame; split_ifs <;> rfl

/-- A tick that fetches has a next state, and nothing after the fetch writes `ir` or the trace: not the terminal event
of an unknown word, not the instruction, not the end of the tick. -/
theorem step_keeps_fetched_ir_trace {s : State} (h : s.fetches) :
    ∃ t, step s = .next t ∧ t.ir = s.fetched.ir ∧ t.ports.trace = s.fetched.ports.trace := by
  cases hdec : decodeWord s.fetchWord with
  | none => exact ⟨_, step_unknown h hdec, rfl, rfl⟩
  | some i =>
    obtain ⟨u, hexec⟩ := exec_next i s.fetched
    obtain ⟨-, hir, -, htrace, -⟩ := exec_keeps hexec
    have hstep : step s = .next u.finishTick := by rw [step_runs ⟨h, hdec⟩, hexec]
    exact ⟨_, hstep, u.finishTick_ir.trans hir, u.finishTick_trace.trans htrace⟩

/-! ## The statement -/

/-- Settles O8: the fetch writes `ir` and shows the word, and the rest of the tick keeps both. -/
theorem fetchWritesTheInstructionRegister : Obligations.FetchWritesTheInstructionRegister := by
  refine fun s => ⟨?_, fun h => ?_⟩
  · rw [← Ports.showWord_eq]
    rfl
  · obtain ⟨t, hstep, hir, htrace⟩ := step_keeps_fetched_ir_trace h
    exact ⟨t, hstep, hir, htrace.trans s.fetched_trace⟩

end Sys2Proof.Machine
end

section
/-! PROOFS. The word of every instruction as a number, for the decoder (spec/30_encoding.md). -/

namespace Sys2Proof

/-- The word of an instruction as a number: its fixed bits and each field at its place value (R71, R77). -/
def Instr.wordNat : Instr → Nat
  | .halt => 0x0000
  | .cls => 0x00E0
  | .ret => 0x00EE
  | .jp nnn => 0x1000 + nnn.toNat
  | .call nnn => 0x2000 + nnn.toNat
  | .sei x nn => 0x3000 + 256 * x.toNat + nn.toNat
  | .snei x nn => 0x4000 + 256 * x.toNat + nn.toNat
  | .ser x y => 0x5000 + 256 * x.toNat + 16 * y.toNat
  | .ldi x nn => 0x6000 + 256 * x.toNat + nn.toNat
  | .addi x nn => 0x7000 + 256 * x.toNat + nn.toNat
  | .ldx nnn => 0xA000 + nnn.toNat
  | .rnd x nn => 0xC000 + 256 * x.toNat + nn.toNat
  | .drw x y n => 0xD000 + 256 * x.toNat + 16 * y.toNat + n.toNat
  | .lddt x => 0xF015 + 256 * x.toNat
  | .ldst x => 0xF018 + 256 * x.toNat

/-! ## From the word to its fields -/

theorem toNat_eq_op_nnn (w : Word) : w.toNat = 4096 * (fieldOp w).toNat + (fieldNNN w).toNat := by
  rw [fieldOp_toNat, fieldNNN_toNat]
  omega

theorem fieldNNN_eq_x_nn (w : Word) : (fieldNNN w).toNat = 256 * (fieldX w).toNat + (fieldNN w).toNat := by
  rw [fieldNNN_toNat, fieldX_toNat, fieldNN_toNat]
  omega

theorem fieldNN_eq_y_n (w : Word) : (fieldNN w).toNat = 16 * (fieldY w).toNat + (fieldN w).toNat := by
  rw [fieldNN_toNat, fieldY_toNat, fieldN_toNat]
  omega

/-- A word decodes only as the instruction whose word it is. -/
theorem toNat_eq_wordNat {w : Word} {i : Instr} (h : decodeWord w = some i) : w.toNat = i.wordNat := by
  have hw := toNat_eq_op_nnn w
  have hnnn := fieldNNN_eq_x_nn w
  have hnn := fieldNN_eq_y_n w
  unfold decodeWord at h
  split at h
  case h_1 => -- OP = 0, three whole words
    unfold decodeOp0 at h
    split_ifs at h <;> cases h <;> assumption
  case h_6 hop => -- OP = 5, a zero low nibble
    unfold decodeOp5 at h
    split_ifs at h with hn
    cases h
    have hn0 : (fieldN w).toNat = 0 := congrArg BitVec.toNat hn
    simp only [Instr.wordNat]
    omega
  case h_12 hop => -- OP = 0xF, a fixed low byte
    unfold decodeOpF at h
    split_ifs at h with hf hf <;> cases h
    · have hlow : (fieldNN w).toNat = 0x15 := congrArg BitVec.toNat hf
      simp only [Instr.wordNat]
      omega
    · have hlow : (fieldNN w).toNat = 0x18 := congrArg BitVec.toNat hf
      simp only [Instr.wordNat]
      omega
  all_goals -- the rows that fix OP alone
    cases h <;> simp only [Instr.wordNat] <;> omega

/-! ## From the operands to the fields, format by format (R72) -/

section
variable {w : Word} {base : Nat} (hbase : base % 4096 = 0)
include hbase

theorem fields_of_formatA {nnn : Addr} (h : w.toNat = base + nnn.toNat) :
    (fieldOp w).toNat = base / 4096 ∧ fieldNNN w = nnn := by
  rw [← BitVec.toNat_inj, fieldOp_toNat, fieldNNN_toNat]
  omega

theorem fields_of_formatXI {x : RegIdx} {nn : Byte} (h : w.toNat = base + 256 * x.toNat + nn.toNat) :
    (fieldOp w).toNat = base / 4096 ∧ fieldX w = x ∧ fieldNN w = nn := by
  simp only [← BitVec.toNat_inj, fieldOp_toNat, fieldX_toNat, fieldNN_toNat]
  omega

theorem fields_of_formatXF {x : RegIdx} {f : Byte} (h : w.toNat = base + f.toNat + 256 * x.toNat) :
    (fieldOp w).toNat = base / 4096 ∧ fieldX w = x ∧ fieldNN w = f :=
  fields_of_formatXI hbase (h.trans (Nat.add_right_comm ..))

theorem fields_of_formatXYN {x y : RegIdx} {n : Nibble}
    (h : w.toNat = base + 256 * x.toNat + 16 * y.toNat + n.toNat) :
    (fieldOp w).toNat = base / 4096 ∧ fieldX w = x ∧ fieldY w = y ∧ fieldN w = n := by
  simp only [← BitVec.toNat_inj, fieldOp_toNat, fieldX_toNat, fieldY_toNat, fieldN_toNat]
  omega

end

/-- The word of an instruction decodes as it: its top nibble selects the row, and each field is its operand. -/
theorem decodeWord_of_toNat {w : Word} {i : Instr} (h : w.toNat = i.wordNat) : decodeWord w = some i := by
  cases i with
  | halt | cls | ret => simp [decodeWord, decodeOp0, fieldOp_toNat, h, Instr.wordNat]
  | jp | call | ldx =>
    obtain ⟨hop, rfl⟩ := fields_of_formatA rfl h
    simp [decodeWord, hop]
  | sei | snei | ldi | addi | rnd =>
    obtain ⟨hop, rfl, rfl⟩ := fields_of_formatXI rfl h
    simp [decodeWord, hop]
  | ser =>
    obtain ⟨hop, rfl, rfl, hn⟩ := fields_of_formatXYN (n := 0) rfl h
    simp [decodeWord, hop, decodeOp5, hn]
  | drw =>
    obtain ⟨hop, rfl, rfl, rfl⟩ := fields_of_formatXYN rfl h
    simp [decodeWord, hop]
  | lddt =>
    obtain ⟨hop, rfl, hnn⟩ := fields_of_formatXF (base := 0xF000) (f := 0x15) rfl h
    simp [decodeWord, hop, decodeOpF, hnn]
  | ldst =>
    obtain ⟨hop, rfl, hnn⟩ := fields_of_formatXF (base := 0xF000) (f := 0x18) rfl h
    simp [decodeWord, hop, decodeOpF, hnn]

theorem decodeWord_eq_some_iff (w : Word) (i : Instr) : decodeWord w = some i ↔ w.toNat = i.wordNat :=
  ⟨toNat_eq_wordNat, decodeWord_of_toNat⟩

end Sys2Proof
end

section
/-! PROOFS. The jump and the three skips (spec/41_control_flow.md): their effects written out in fields, the tick that
runs one, the tick after it, and from these the statements on JP, SEI, SNEI and SER. -/

namespace Sys2Proof.Machine

/-! ## What they do -/

theorem State.advance_skipBy (s : State) (c : Bool) :
    s.advance (skipBy c) = { s with pc := if c then s.pc + 4 else s.pc + 2 } := by
  rw [State.advance, add_skipBy]
  rfl

/-- JP (R112). -/
theorem exec_jp (nnn : Addr) (s : State) : exec (.jp nnn) s = .next { s with pc := nnn.setWidth 16 } := rfl

/-- SEI (R114). -/
theorem exec_sei (x : RegIdx) (nn : Byte) (s : State) :
    exec (.sei x nn) s = .next { s with pc := if s.readX x = nn then s.pc + 4 else s.pc + 2 } := by
  simp [exec, execSei, State.advance_skipBy]

/-- SNEI (R115). -/
theorem exec_snei (x : RegIdx) (nn : Byte) (s : State) :
    exec (.snei x nn) s = .next { s with pc := if s.readX x ≠ nn then s.pc + 4 else s.pc + 2 } := by
  simp [exec, execSnei, State.advance_skipBy]

/-- SER (R116). -/
theorem exec_ser (x y : RegIdx) (s : State) :
    exec (.ser x y) s = .next { s with pc := if s.readX x = s.readX y then s.pc + 4 else s.pc + 2 } := by
  simp [exec, execSer, State.advance_skipBy]

/-- A zero-extended address keeps its value (R73). -/
theorem toNat_setWidth_addr (nnn : Addr) : (nnn.setWidth 16 : Word).toNat = nnn.toNat :=
  BitVec.toNat_setWidth_of_le (by decide)

/-! ## Ticks -/

/-- A tick that runs an instruction: what `exec` answers in the fetched state, then the end of the tick (R101). -/
theorem eq_finishTick_of_runs {s t u : State} {i : Instr} (hi : s.runs i) (hexec : exec i s.fetched = .next u)
    (h : step s = .next t) : t = u.finishTick := by
  rw [step_runs hi, hexec] at h
  cases h
  rfl

/-- A fetch past the end of memory (R94). -/
theorem step_fetchBounds {s : State} (hrun : s.run = .running) (hstop : s.stopAsserted = false)
    (hpc : 0xFFE < s.pc.toNat) : step s = .next (s.sampleStop.raise .fetchBounds) := by
  have hfetch : s.canFetch = false := by
    rw [Bool.eq_false_iff, Ne, State.canFetch_iff]
    omega
  simp [step, State.startTick, hrun, hstop, hfetch]

/-- The zero word ends the run (R95). -/
theorem step_zeroWord {s : State} (h : s.fetches) (hw : s.fetchWord = 0) :
    step s = .next (s.fetched.raise .haltZero) := by
  have hruns : s.runs .halt := ⟨h, by rw [hw]; rfl⟩
  rw [step_runs hruns]
  rfl

theorem State.fetchWord_eq_zero {s : State} (hhi : s.mem.read s.pc.toNat = 0)
    (hlo : s.mem.read (s.pc.toNat + 1) = 0) : s.fetchWord = 0 := by
  rw [State.fetchWord, Memory.readWord, hhi, hlo]
  rfl

/-- The tick of a JP: the machine runs on at the target, in the same memory (R112). -/
theorem step_jp {s t : State} {nnn : Addr} (hi : s.runs (.jp nnn)) (h : step s = .next t) :
    t.run = .running ∧ t.pc.toNat = nnn.toNat ∧ t.mem = s.mem := by
  obtain rfl := eq_finishTick_of_runs hi (exec_jp nnn _) h
  obtain ⟨⟨hrun, -⟩, -⟩ := hi
  refine ⟨by simp [hrun], ?_, by simp⟩
  rw [State.finishTick_pc]
  exact toNat_setWidth_addr nnn

/-- The tick of a SEI that skips: the machine runs on two words further (R114). -/
theorem step_sei_skip {s t : State} {x : RegIdx} {nn : Byte} (hi : s.runs (.sei x nn)) (heq : s.readX x = nn)
    (h : step s = .next t) : t.run = .running ∧ t.pc = s.pc + 4 := by
  obtain rfl := eq_finishTick_of_runs hi (exec_sei x nn _) h
  obtain ⟨⟨hrun, -⟩, -⟩ := hi
  simp [hrun, heq]

/-- A jump into zeroed memory halts the machine at its next tick (R95, R112). -/
theorem step_after_jp_to_zeros {s t : State} {nnn : Addr} (hi : s.runs (.jp nnn)) (h : step s = .next t)
    (hstop : t.stopAsserted = false) (hlow : nnn.toNat ≤ 0x1FE) (hzero : ∀ a ≤ 0x1FF, s.mem.read a = 0) :
    step t = .next (t.fetched.raise .haltZero) := by
  obtain ⟨hrun, hpc, hmem⟩ := step_jp hi h
  have hfetches : t.fetches := ⟨hrun, hstop, by omega⟩
  have hword : t.fetchWord = 0 := by
    apply State.fetchWord_eq_zero <;> rw [hmem, hpc] <;> exact hzero _ (by omega)
  exact step_zeroWord hfetches hword

/-! ## The statements -/

/-- Settles O29: a jump to its own address writes the `pc` it finds, and the tick after a jump fetches at the target,
two zero bytes in the low region and nothing at 0xFFF. -/
theorem jpJumps : Obligations.JpJumps := by
  refine ⟨fun w nnn => decodeWord_eq_some_iff w _, fun nnn s => ⟨exec_jp nnn s, toNat_setWidth_addr nnn⟩,
    fun nnn s hself => ?_, fun nnn s t hi h hstop => ⟨fun hlow hzero => ?_, fun htop => ?_⟩⟩
  · have hpc : nnn.setWidth 16 = s.pc := BitVec.eq_of_toNat_eq ((toNat_setWidth_addr nnn).trans hself)
    rw [exec_jp, hpc]
  · exact ⟨_, step_after_jp_to_zeros hi h hstop hlow hzero, rfl, rfl⟩
  · obtain ⟨hrun, hpc, -⟩ := step_jp hi h
    exact ⟨_, step_fetchBounds hrun hstop (by omega), rfl, rfl⟩

/-- Settles O32: a skip at 0xFFC or above leaves `pc` past the last address a word can be fetched from. -/
theorem seiSkipsOnEqual : Obligations.SeiSkipsOnEqual := by
  refine ⟨fun w x nn => decodeWord_eq_some_iff w _, exec_sei, fun x nn s t hi heq hhigh h hstop => ?_⟩
  obtain ⟨hrun, hpc⟩ := step_sei_skip hi heq h
  obtain ⟨⟨-, -, hfetch⟩, -⟩ := hi
  have hpast : 0xFFE < t.pc.toNat := by
    rw [hpc]
    bv_omega
  exact ⟨_, step_fetchBounds hrun hstop hpast, rfl, rfl⟩

/-- Settles O33: the condition of SNEI is the negation of SEI's, so a case split on it gives which one skips. -/
theorem sneiSkipsOnDifferent : Obligations.SneiSkipsOnDifferent := by
  refine ⟨fun w x nn => decodeWord_eq_some_iff w _, exec_snei, fun x nn s => ?_⟩
  rw [exec_sei, exec_snei]
  by_cases heq : s.readX x = nn
  · left
    simp [heq]
  · right
    simp [heq]

/-- Settles O34: the opcode 5 is refused by its low nibble, the opcode 9 has no row, and a register equals itself. -/
theorem serSkipsOnEqualRegisters : Obligations.SerSkipsOnEqualRegisters := by
  refine ⟨fun w x y => decodeWord_eq_some_iff w _, fun w hw => ?_, exec_ser, fun x s => ?_⟩
  · rw [← fieldOp_toNat, ← fieldN_toNat] at hw
    obtain ⟨hop, hn⟩ | hop := hw
    · have hn0 : fieldN w ≠ 0 := fun h0 => hn (by rw [h0]; rfl)
      simpa [decodeWord, hop, decodeOp5] using hn0
    · simp [decodeWord, hop]
  · rw [exec_ser, if_pos rfl]

end Sys2Proof.Machine
end

section
/-! PROOFS. The three register instructions that read no input (spec/42_register_ops.md): their effects written out in
fields, and from these the statements on LDI, ADDI and LDX. -/

namespace Sys2Proof.Machine

/-! ## What they do -/

/-- LDI (R131). -/
theorem exec_ldi (x : RegIdx) (nn : Byte) (s : State) :
    exec (.ldi x nn) s = .next { s with x := s.x.set x.toNat nn x.isLt, pc := s.pc + 2 } := rfl

/-- ADDI (R132); the sum of two bytes is a byte, so it is modulo 256. -/
theorem exec_addi (x : RegIdx) (nn : Byte) (s : State) :
    exec (.addi x nn) s =
      .next { s with x := s.x.set x.toNat (s.readX x + nn) x.isLt, pc := s.pc + 2 } := rfl

/-- LDX (R133). -/
theorem exec_ldx (nnn : Addr) (s : State) :
    exec (.ldx nnn) s = .next { s with I := nnn.setWidth 16, pc := s.pc + 2 } := rfl

/-- Writing back what a register holds changes nothing (R20). -/
theorem State.set_readX_self (s : State) (x : RegIdx) : s.x.set x.toNat (s.readX x) x.isLt = s.x :=
  Vector.set_getElem_self x.isLt

/-- In 8 bits 0xFF is minus 1. -/
theorem Byte.add_0xFF (v : Byte) : v + 0xFF = v - 1 :=
  (BitVec.sub_eq_add_neg v 1).symm

/-! ## The statements -/

/-- Settles O36: the sum of two bytes is taken modulo 256; with 0 the register gets back what it holds, and 0xFF is
minus 1. -/
theorem addiAddsModulo256 : Obligations.AddiAddsModulo256 := by
  refine ⟨fun w x nn => decodeWord_eq_some_iff w _, fun x nn s => ?_, fun x s => ?_, fun x s => ?_⟩
  · exact ⟨s.readX x + nn, exec_addi x nn s, BitVec.toNat_add _ _⟩
  · rw [exec_addi, add_zero, State.set_readX_self]
  · rw [exec_addi, Byte.add_0xFF]

/-- Settles O35: the effect of LDI is the same record update for every register, 15 included. -/
theorem ldiLoadsTheImmediate : Obligations.LdiLoadsTheImmediate :=
  ⟨fun w _ _ => decodeWord_eq_some_iff w _, exec_ldi⟩

/-- Settles O37: zero-extension keeps the value of the address. -/
theorem ldxLoadsTheIndexRegister : Obligations.LdxLoadsTheIndexRegister :=
  ⟨fun w _ => decodeWord_eq_some_iff w _, fun nnn s => ⟨exec_ldx nnn s, toNat_setWidth_addr nnn⟩⟩

end Sys2Proof.Machine
end

section
/-! PROOFS. What CLS and DRW do to the pixels (spec/43_display.md), and from it the statements on CLS and on the OR of
DRW. -/

namespace Sys2Proof.Machine

/-! ## The two outcomes of an instruction -/

/-- `exec` of an instruction that has a terminal event (R184, R185). -/
theorem exec_eq_raise {i : Instr} {s : State} (h : s.instrCause i ≠ .none) :
    exec i s = .next (s.raise (s.instrCause i)) := by
  obtain ⟨u, hu⟩ := exec_next i s
  rcases exec_cause hu with ⟨hnone, -⟩ | ⟨-, rfl⟩
  · exact absurd hnone h
  · exact hu

/-- An instruction raises its terminal event, or it has none and has its effect. -/
theorem exec_raise_or_effect {i : Instr} {s u : State} (h : exec i s = .next u) :
    (s.instrCause i ≠ .none ∧ u = s.raise (s.instrCause i)) ∨ (s.instrCause i = .none ∧ u = s.effect i) := by
  by_cases hnone : s.instrCause i = .none
  · rw [exec_eq_effect hnone] at h
    exact .inr ⟨hnone, (Host.Outcome.next.inj h).symm⟩
  · rw [exec_eq_raise hnone] at h
    exact .inl ⟨hnone, (Host.Outcome.next.inj h).symm⟩

/-- The tick of an instruction whose answer in the fetched state is known (R101). -/
theorem step_eq_finishTick {s u : State} {i : Instr} (hi : s.runs i) (hexec : exec i s.fetched = .next u) :
    step s = .next u.finishTick := by
  rw [step_runs hi, hexec]

/-! ## The sprite as a mask over the rows -/

/-- What a DRW ORs into row `r`: the byte of its sprite row there, or nothing (R151). -/
def State.spriteMask (s : State) (x y : RegIdx) (n : Nibble) (r : Nat) : FbRow :=
  if (s.readX y).toNat ≤ r ∧ r < (s.readX y).toNat + n.toNat then
    spriteRow (s.mem.read (s.I.toNat + (r - (s.readX y).toNat))) (s.readX x).toNat
  else 0

theorem State.getElem_drawn_eq_or (s : State) (x y : RegIdx) (n : Nibble) {r : Nat} (hr : r < 32) :
    (s.drawn x y n)[r] = s.fb[r] ||| s.spriteMask x y n r := by
  rw [State.getElem_drawn, State.spriteMask]
  split_ifs
  · rfl
  · exact BitVec.or_zero.symm

/-- A sprite drawn over itself adds nothing (R155). -/
theorem State.drawn_effect_drw (s : State) (x y : RegIdx) (n : Nibble) :
    (s.effect (.drw x y n)).drawn x y n = s.drawn x y n := by
  refine Vector.ext fun r hr => ?_
  calc ((s.effect (.drw x y n)).drawn x y n)[r]
      = (s.drawn x y n)[r] ||| s.spriteMask x y n r := State.getElem_drawn_eq_or _ x y n hr
    _ = s.fb[r] ||| s.spriteMask x y n r ||| s.spriteMask x y n r := by rw [State.getElem_drawn_eq_or]
    _ = s.fb[r] ||| s.spriteMask x y n r := by rw [BitVec.or_assoc, BitVec.or_self]
    _ = (s.drawn x y n)[r] := (s.getElem_drawn_eq_or x y n hr).symm

/-- The mask of a sprite row inside the sprite. -/
theorem State.spriteMask_add (s : State) (x y : RegIdx) {n : Nibble} {j : Nat} (hj : j < n.toNat) :
    s.spriteMask x y n ((s.readX y).toNat + j) = spriteRow (s.mem.read (s.I.toNat + j)) (s.readX x).toNat := by
  rw [State.spriteMask, if_pos (by omega), Nat.add_sub_cancel_left]

/-- Bit `7 − k` of a sprite byte lands on column `vx + k` (R154). -/
theorem getLsbD_spriteRow_column (b : Byte) {vx k : Nat} (hvx : vx ≤ 56) (hk : k < 8) :
    (spriteRow b vx).getLsbD (63 - (vx + k)) = b.getLsbD (7 - k) := by
  have hlt : 63 - (vx + k) < 64 := by omega
  have hge : ¬ 63 - (vx + k) < 56 - vx := by omega
  have hbit : 63 - (vx + k) - (56 - vx) = 7 - k := by omega
  simp [spriteRow, hlt, hge, hbit]

/-! ## Pixels -/

/-- A pixel inside the frame is its bit of its row (R33). -/
theorem Frame.pixel_eq_getLsbD (f : Frame) {c r : Nat} (hc : c < 64) (hr : r < 32) :
    Frame.pixel f c r = f[r].getLsbD (63 - c) := by
  simp [Frame.pixel, hc, Frame.row_eq f r hr]

/-- Nothing outside the frame is lit. -/
theorem Frame.lt_of_pixel {f : Frame} {c r : Nat} (h : Frame.pixel f c r = true) : c < 64 ∧ r < 32 := by
  rw [Frame.pixel, Bool.and_eq_true, decide_eq_true_eq] at h
  obtain ⟨hc, hbit⟩ := h
  refine ⟨hc, ?_⟩
  by_contra hr
  simp [Frame.row, hr] at hbit

/-- A DRW lights a pixel under a set bit of its mask and leaves every other pixel as it was (R154, R155). -/
theorem State.pixel_drawn (s : State) (x y : RegIdx) (n : Nibble) {c r : Nat} (hc : c < 64) (hr : r < 32) :
    Frame.pixel (s.drawn x y n) c r = (Frame.pixel s.fb c r || (s.spriteMask x y n r).getLsbD (63 - c)) := by
  rw [Frame.pixel_eq_getLsbD _ hc hr, Frame.pixel_eq_getLsbD _ hc hr, State.getElem_drawn_eq_or, BitVec.getLsbD_or]

/-- No instruction but CLS darkens a pixel: DRW lights pixels, and the others leave the framebuffer alone (R34). -/
theorem State.effect_keeps_lit {s : State} {i : Instr} (hcls : i ≠ .cls) {c r : Nat}
    (h : Frame.pixel s.fb c r = true) : Frame.pixel (s.effect i).fb c r = true := by
  cases i with
  | cls => exact absurd rfl hcls
  | drw x y n =>
    obtain ⟨hc, hr⟩ := Frame.lt_of_pixel h
    have hdrawn := s.pixel_drawn x y n hc hr
    rw [h, Bool.true_or] at hdrawn
    exact hdrawn
  | _ => exact h

/-- A DRW that draws leaves a pixel under a zero bit of its sprite as it was (R155). -/
theorem State.pixel_drawn_zero_bit {s : State} {x y : RegIdx} {n : Nibble} (hnone : s.instrCause (.drw x y n) = .none)
    {k j : Nat} (hk : k < 8) (hj : j < n.toNat) (hbit : (s.mem.read (s.I.toNat + j)).getLsbD (7 - k) = false) :
    Frame.pixel (s.drawn x y n) ((s.readX x).toNat + k) ((s.readX y).toNat + j) =
      Frame.pixel s.fb ((s.readX x).toNat + k) ((s.readX y).toNat + j) := by
  rw [State.instrCause_drw_eq_none, spriteFault_eq_none] at hnone
  have hx : (s.readX x).toNat ≤ 56 := by omega
  rw [State.pixel_drawn _ _ _ _ (by omega) (by omega), State.spriteMask_add _ _ _ hj,
    getLsbD_spriteRow_column _ hx hk, hbit, Bool.or_false]

/-! ## The statements -/

/-- Settles O39: the dark frame is all zero rows, the end of the tick delivers it, and the effect of no other
instruction darkens a pixel. -/
theorem clsClearsTheFramebuffer : Obligations.ClsClearsTheFramebuffer := by
  have hdark : ∀ r, (hr : r < 32) → Frame.dark[r] = 0 := fun r hr => Vector.getElem_replicate hr
  refine ⟨fun w => (decodeWord_eq_some_iff w .cls).trans (BitVec.toNat_inj (y := 0x00E0)),
    fun s => ⟨Frame.dark, rfl, hdark⟩, fun s hi => ?_, fun s t c r h hlit hunlit => ?_⟩
  · have hstep : step s = .next (s.fetched.effect .cls).finishTick := step_eq_finishTick hi rfl
    obtain ⟨⟨hrun, -⟩, -⟩ := hi
    refine ⟨_, hstep, ?_⟩
    rw [State.finishTick_running (by simp [hrun])]
    simpa [hrun, State.effect] using hdark
  · rcases step_terminal_or_effect h with ⟨w, p, cause, rfl⟩ | ⟨i, hi, rfl⟩
    · exact absurd hlit (Bool.eq_false_iff.1 hunlit)
    · by_contra hno
      have hcls : i ≠ .cls := fun hcls => hno (hcls ▸ hi)
      have hkept := State.effect_keeps_lit (s := s.fetched) hcls hlit
      rw [State.finishTick_fb, hkept] at hunlit
      cases hunlit

/-- Settles O44: a DRW that raises a fault keeps the framebuffer, and one that draws ORs the same mask into it each
time. -/
theorem drwOnlyLightsPixels : Obligations.DrwOnlyLightsPixels := by
  refine ⟨fun x y n s t c r h hlit => ?_, fun x y n s t k j h hk hj hbit => ?_, fun x y n s t u hst htu => ?_⟩
  · rcases exec_raise_or_effect h with ⟨-, rfl⟩ | ⟨-, rfl⟩
    · exact hlit
    · exact State.effect_keeps_lit (by simp) hlit
  · rcases exec_raise_or_effect h with ⟨-, rfl⟩ | ⟨hnone, rfl⟩
    · rfl
    · exact State.pixel_drawn_zero_bit hnone hk hj hbit
  · rcases exec_raise_or_effect htu with ⟨-, rfl⟩ | ⟨hnone, rfl⟩
    · rfl
    · rcases exec_raise_or_effect hst with ⟨hfault, rfl⟩ | ⟨-, rfl⟩
      · exact absurd hnone hfault -- the second DRW meets the same fault
      · exact s.drawn_effect_drw x y n

end Sys2Proof.Machine
end

section
/-! PROOFS. The pixels are written and never read: each part of a tick, run with another framebuffer and other delivered
frames, differs in these only. From this the statement that there is no collision flag (spec/43_display.md). -/

namespace Sys2Proof.Machine

/-- The state with another framebuffer and other delivered frames. -/
def State.withPixels (s : State) (f : Frame) (fs : List Frame) : State :=
  { s with fb := f, ports := { s.ports with frames := fs } }

/-! ## Each part of a tick -/

theorem State.fetched_withPixels (s : State) (f : Frame) (fs : List Frame) :
    (s.withPixels f fs).fetched = s.fetched.withPixels f fs := by
  rw [State.fetched_eq, State.fetched_eq, Ports.showWord_eq, Ports.showWord_eq]
  rfl

theorem State.instrCause_withPixels (s : State) (f : Frame) (fs : List Frame) (i : Instr) :
    (s.withPixels f fs).instrCause i = s.instrCause i := by
  cases i <;> rfl

/-- CLS and DRW write pixels, and no instruction writes anything else by them. -/
theorem State.effect_withPixels (s : State) (f : Frame) (fs : List Frame) (i : Instr) :
    ∃ f', (s.withPixels f fs).effect i = (s.effect i).withPixels f' fs := by
  cases i with
  | cls => exact ⟨Frame.dark, rfl⟩
  | drw x y n => exact ⟨(s.withPixels f fs).drawn x y n, rfl⟩
  | _ => exact ⟨f, rfl⟩

theorem exec_withPixels {i : Instr} {s u : State} (h : exec i s = .next u) (f : Frame) (fs : List Frame) :
    ∃ f', exec i (s.withPixels f fs) = .next (u.withPixels f' fs) := by
  have hcause := s.instrCause_withPixels f fs i
  rcases exec_raise_or_effect h with ⟨hfault, rfl⟩ | ⟨hnone, rfl⟩
  · rw [exec_eq_raise (hcause.trans_ne hfault), hcause]
    exact ⟨f, rfl⟩
  · obtain ⟨f', heffect⟩ := s.effect_withPixels f fs i
    rw [exec_eq_effect (hcause.trans hnone), heffect]
    exact ⟨f', rfl⟩

/-- The end of a tick delivers the framebuffer it finds (R98). -/
theorem State.finishTick_withPixels (s : State) (f : Frame) (fs : List Frame) :
    ∃ fs', (s.withPixels f fs).finishTick = s.finishTick.withPixels f fs' := by
  cases hrun : s.run with
  | halted =>
    rw [State.finishTick_halted hrun, State.finishTick_halted (s := s.withPixels f fs) hrun]
    exact ⟨fs, rfl⟩
  | running =>
    rw [State.finishTick_running hrun, State.finishTick_running (s := s.withPixels f fs) hrun]
    cases hredraw : s.redraw with
    | true => exact ⟨f :: fs, by simp [State.withPixels, hredraw]⟩
    | false => exact ⟨fs, by simp [State.withPixels, hredraw]⟩

/-! ## The tick -/

/-- A stop request ends the tick before the fetch (R92). -/
theorem step_externalStop {s : State} (hrun : s.run = .running) (hstop : s.stopAsserted = true) :
    step s = .next (s.raise .externalStop) := by
  simp [step, State.startTick, hrun, hstop]

/-- A tick from a state with other pixels ends the same way, with other pixels. -/
theorem step_withPixels {s t : State} (h : step s = .next t) (f : Frame) (fs : List Frame) :
    ∃ f' fs', step (s.withPixels f fs) = .next (t.withPixels f' fs') := by
  obtain ⟨hrun, ⟨hstop, rfl⟩ | ⟨hstop, hpc, rfl⟩ | ⟨hstop, hpc, hdec, rfl⟩ | ⟨hstop, hpc, i, u, hdec, hexec, rfl⟩⟩ :=
    step_cases h
  · exact ⟨f, fs, step_externalStop (s := s.withPixels f fs) hrun hstop⟩
  · exact ⟨f, fs, step_fetchBounds (s := s.withPixels f fs) hrun hstop hpc⟩
  · refine ⟨f, fs, ?_⟩
    rw [step_unknown (s := s.withPixels f fs) ⟨hrun, hstop, hpc⟩ hdec, State.fetched_withPixels]
    rfl
  · obtain ⟨f', hexec'⟩ := exec_withPixels hexec f fs
    rw [← State.fetched_withPixels] at hexec'
    obtain ⟨fs', hfinish⟩ := u.finishTick_withPixels f' fs
    refine ⟨f', fs', ?_⟩
    rw [step_eq_finishTick (s := s.withPixels f fs) ⟨⟨hrun, hstop, hpc⟩, hdec⟩ hexec', hfinish]

/-! ## The statement -/

/-- Settles O45: the effect of DRW writes no register, and each part of a tick keeps a difference in pixels a difference
in pixels. -/
theorem drawnPixelsAreNeverReadBack : Obligations.DrawnPixelsAreNeverReadBack := by
  refine ⟨fun x y n s t h => ?_, fun s t f h => ?_⟩
  · rcases exec_raise_or_effect h with ⟨-, rfl⟩ | ⟨-, rfl⟩ <;> rfl
  · obtain ⟨f', fs', hstep⟩ := step_withPixels h f s.ports.frames
    exact ⟨t.withPixels f' fs', hstep, rfl⟩

end Sys2Proof.Machine
end

section
/-! PROOFS. Noninterference of a tick: if each part of a tick keeps two states related, the tick does. For relations of
the kind "the same but for a field that nothing reads". -/

namespace Sys2Proof.Machine

/-- Related states agree in everything that decides how a tick runs, and each part of a tick keeps them related. -/
structure TickPartsKeep (R : State → State → Prop) : Prop where
  run {s s' : State} : R s s' → s'.run = s.run
  stopAsserted {s s' : State} : R s s' → s'.stopAsserted = s.stopAsserted
  pc {s s' : State} : R s s' → s'.pc = s.pc
  fetchWord {s s' : State} : R s s' → s'.fetchWord = s.fetchWord
  instrCause {s s' : State} (i : Instr) : R s s' → s'.instrCause i = s.instrCause i
  sampleStop {s s' : State} : R s s' → R s.sampleStop s'.sampleStop
  fetched {s s' : State} : R s s' → R s.fetched s'.fetched
  effect {s s' : State} (i : Instr) : R s s' → R (s.effect i) (s'.effect i)
  raise {s s' : State} (c : Cause) : R s s' → R (s.raise c) (s'.raise c)
  finishTick {s s' : State} : R s s' → R s.finishTick s'.finishTick

section
variable {R : State → State → Prop} (hR : TickPartsKeep R) {s s' : State} (hs : R s s')
include hR hs

/-- From related states an instruction raises the same terminal event, or has its effect in both. -/
theorem TickPartsKeep.exec {i : Instr} {u : State} (h : exec i s = .next u) :
    ∃ u', exec i s' = .next u' ∧ R u u' := by
  have hcause := hR.instrCause i hs
  rcases exec_raise_or_effect h with ⟨hfault, rfl⟩ | ⟨hnone, rfl⟩
  · exact ⟨_, exec_eq_raise (hcause.trans_ne hfault), hcause ▸ hR.raise _ hs⟩
  · exact ⟨_, exec_eq_effect (hcause.trans hnone), hR.effect i hs⟩

/-- From related states a tick runs the same parts (R101). -/
theorem TickPartsKeep.step {t : State} (h : step s = .next t) : ∃ t', step s' = .next t' ∧ R t t' := by
  obtain ⟨hrun, hcases⟩ := step_cases h
  rw [← hR.run hs] at hrun
  rw [← hR.stopAsserted hs, ← hR.pc hs, ← hR.fetchWord hs] at hcases
  obtain ⟨hstop, rfl⟩ | ⟨hstop, hpc, rfl⟩ | ⟨hstop, hpc, hdec, rfl⟩ | ⟨hstop, hpc, i, u, hdec, hexec, rfl⟩ := hcases
  · exact ⟨_, step_externalStop hrun hstop, hR.raise _ hs⟩
  · exact ⟨_, step_fetchBounds hrun hstop hpc, hR.raise _ (hR.sampleStop hs)⟩
  · exact ⟨_, step_unknown ⟨hrun, hstop, hpc⟩ hdec, hR.raise _ (hR.fetched hs)⟩
  · obtain ⟨u', hexec', hu⟩ := hR.exec (hR.fetched hs) hexec
    exact ⟨_, step_eq_finishTick ⟨⟨hrun, hstop, hpc⟩, hdec⟩ hexec', hR.finishTick hu⟩

end

end Sys2Proof.Machine
end

section
/-! PROOFS. The two timers (spec/44_timers.md): nothing reads them, each load writes its own, and every completed tick
counts both down. From these the statements on the timers, LDDT and LDST. -/

namespace Sys2Proof.Machine

/-! ## Nothing reads them -/

/-- The second state is the first with other values in the timers. -/
def SameButTimers (s s' : State) : Prop := ∃ d e : Byte, s' = { s with dt := d, st := e }

theorem SameButTimers.run {s s' : State} (h : SameButTimers s s') : s'.run = s.run := by
  obtain ⟨d, e, rfl⟩ := h
  rfl

/-- The end of a tick counts down whatever the timers hold (R99). -/
theorem SameButTimers.finishTick {s s' : State} (h : SameButTimers s s') :
    SameButTimers s.finishTick s'.finishTick := by
  cases hrun : s.run with
  | halted => rwa [State.finishTick_halted hrun, State.finishTick_halted (h.run.trans hrun)]
  | running =>
    rw [State.finishTick_running hrun, State.finishTick_running (h.run.trans hrun)]
    obtain ⟨d, e, rfl⟩ := h
    exact ⟨countDown d, countDown e, rfl⟩

/-- A timer load writes the same value over any other; every other instruction leaves the timers as they are. -/
theorem SameButTimers.effect {s s' : State} (i : Instr) (h : SameButTimers s s') :
    SameButTimers (s.effect i) (s'.effect i) := by
  obtain ⟨d, e, rfl⟩ := h
  cases i with
  | lddt x => exact ⟨s.readX x, e, rfl⟩
  | ldst x => exact ⟨d, s.readX x, rfl⟩
  | _ => exact ⟨d, e, rfl⟩

theorem tickPartsKeep_sameButTimers : TickPartsKeep SameButTimers where
  run := SameButTimers.run
  stopAsserted := fun ⟨_, _, h⟩ => h ▸ rfl
  pc := fun ⟨_, _, h⟩ => h ▸ rfl
  fetchWord := fun ⟨_, _, h⟩ => h ▸ rfl
  instrCause := fun i ⟨_, _, h⟩ => by cases h; cases i <;> rfl
  sampleStop := fun ⟨d, e, h⟩ => ⟨d, e, h ▸ rfl⟩
  fetched := fun ⟨d, e, h⟩ => ⟨d, e, h ▸ rfl⟩
  effect := SameButTimers.effect
  raise := fun _ ⟨d, e, h⟩ => ⟨d, e, h ▸ rfl⟩
  finishTick := SameButTimers.finishTick

/-! ## The loads -/

/-- LDDT (R170). -/
theorem exec_lddt (x : RegIdx) (s : State) :
    exec (.lddt x) s = .next { s with dt := s.readX x, pc := s.pc + 2 } := rfl

/-- LDST (R171). -/
theorem exec_ldst (x : RegIdx) (s : State) :
    exec (.ldst x) s = .next { s with st := s.readX x, pc := s.pc + 2 } := rfl

/-- Only LDDT writes the delay timer (R31). -/
theorem State.effect_dt (s : State) {i : Instr} (h : ∀ x, i ≠ .lddt x) : (s.effect i).dt = s.dt := by
  cases i with
  | lddt x => exact absurd rfl (h x)
  | _ => rfl

/-- Only LDST writes the sound timer (R31). -/
theorem State.effect_st (s : State) {i : Instr} (h : ∀ x, i ≠ .ldst x) : (s.effect i).st = s.st := by
  cases i with
  | ldst x => exact absurd rfl (h x)
  | _ => rfl

/-! ## Completed ticks -/

/-- A tick that runs an instruction without terminal event completes (R101). -/
theorem completes_of_runs {s : State} {i : Instr} (hi : s.runs i) (hnone : s.fetched.instrCause i = .none) :
    Completes s (s.fetched.effect i).finishTick := by
  refine ⟨step_eq_finishTick hi (exec_eq_effect hnone), ?_⟩
  obtain ⟨⟨hrun, -⟩, -⟩ := hi
  simp [hrun]

/-- A completed tick ran an instruction. -/
theorem Completes.exists_runs {s t : State} (h : Completes s t) : ∃ i, s.runs i := by
  obtain ⟨hstep, hrun⟩ := h
  rcases step_terminal_or_effect hstep with ⟨w, p, c, rfl⟩ | ⟨i, hi, -⟩
  · cases hrun
  · exact ⟨i, hi⟩

/-- A completed tick counts down what its instruction leaves in the timers (R99). -/
theorem Completes.timers_of_runs {s t : State} {i : Instr} (h : Completes s t) (hi : s.runs i) :
    t.dt = countDown (s.fetched.effect i).dt ∧ t.st = countDown (s.fetched.effect i).st := by
  have ht := completes_eq_effect hi h
  obtain ⟨⟨hrun, -⟩, -⟩ := hi
  rw [State.finishTick_running (by simp [hrun])] at ht
  subst ht
  exact ⟨rfl, rfl⟩

/-- A completed tick that is no LDDT counts the delay timer down (R99). -/
theorem Completes.dt_of_no_lddt {s t : State} (hno : ∀ y, ¬ s.runs (.lddt y)) (h : Completes s t) :
    t.dt = countDown s.dt := by
  obtain ⟨i, hi⟩ := h.exists_runs
  rw [(h.timers_of_runs hi).1, State.effect_dt _ fun y hy => hno y (hy ▸ hi), State.fetched_dt]

/-- A completed tick that is no LDST counts the sound timer down (R99). -/
theorem Completes.st_of_no_ldst {s t : State} (hno : ∀ y, ¬ s.runs (.ldst y)) (h : Completes s t) :
    t.st = countDown s.st := by
  obtain ⟨i, hi⟩ := h.exists_runs
  rw [(h.timers_of_runs hi).2, State.effect_st _ fun y hy => hno y (hy ▸ hi), State.fetched_st]

/-- A timer that every tick of a run counts down is less by the number of ticks, or 0. -/
theorem Ticks.timer_toNat {ok : State → Prop} {timer : State → Byte} {m : Nat} {t u : State}
    (hcount : ∀ {s s' : State}, ok s → Completes s s' → timer s' = countDown (timer s)) (h : Ticks ok m t u) :
    (timer u).toNat = (timer t).toNat - m := by
  induction h with
  | none => rfl
  | more hok htick _ ih =>
    rw [ih, hcount hok htick, countDown_toNat]
    omega

/-! ## The statements -/

/-- Settles O20: no part of a tick reads a timer, so each keeps a difference in the timers a difference in the timers. -/
theorem timersAreNeverRead : Obligations.TimersAreNeverRead := by
  intro s t d e h
  obtain ⟨_, hstep, d', e', rfl⟩ := tickPartsKeep_sameButTimers.step (s := s) ⟨d, e, rfl⟩ h
  exact ⟨_, hstep, rfl⟩

/-- Settles O46: the end of the loading tick counts the loaded value down once, and each later tick once more. -/
theorem lddtLoadsTheDelayTimer : Obligations.LddtLoadsTheDelayTimer := by
  refine ⟨fun w x => decodeWord_eq_some_iff w _, exec_lddt, fun x s hi => ?_⟩
  have hload := completes_of_runs hi rfl
  obtain ⟨hdt, -⟩ := hload.timers_of_runs hi
  refine ⟨_, hload, hdt, fun m u hticks => ?_⟩
  rw [hticks.timer_toNat (timer := State.dt) Completes.dt_of_no_lddt, hdt, countDown_toNat]
  rfl

/-- Settles O47: as O46, and the effect of LDDT leaves the sound timer. -/
theorem ldstLoadsTheSoundTimer : Obligations.LdstLoadsTheSoundTimer := by
  refine ⟨fun w x => decodeWord_eq_some_iff w _, exec_ldst, fun x s t h => ?_, fun x s hi => ?_⟩
  · rw [exec_lddt] at h
    cases h
    rfl
  · have hload := completes_of_runs hi rfl
    obtain ⟨-, hst⟩ := hload.timers_of_runs hi
    refine ⟨_, hload, hst, fun m u hticks => ?_⟩
    rw [hticks.timer_toNat (timer := State.st) Completes.st_of_no_ldst, hst, countDown_toNat]
    rfl

end Sys2Proof.Machine
end

section
/-! PROOFS. The state in which every image starts, and from it the statement on the entry point
(spec/70_reset_and_hazards.md). -/

namespace Sys2Proof.Machine

/-- The entry address is the one of reset, whatever the image: no load writes `pc` (R221). -/
theorem pc_of_launch {img : List Byte} {s : State} (h : launch img = .ok s) : s.pc = 0x0200 := by
  obtain ⟨-, rfl⟩ := launch_eq_ok_iff.1 h
  rfl

/-- The machine starts RUNNING, whatever the image: no load writes `run` (R221). -/
theorem run_of_launch {img : List Byte} {s : State} (h : launch img = .ok s) : s.run = .running := by
  obtain ⟨-, rfl⟩ := launch_eq_ok_iff.1 h
  rfl

/-- Settles O55: a load keeps the `pc` and `run` of reset, and the fetch reads at `pc`. -/
theorem entryPointIsFixed : Obligations.EntryPointIsFixed := by
  refine ⟨rfl, rfl, fun img s h => ⟨pc_of_launch h, run_of_launch h, ?_⟩⟩
  rw [State.fetchWord, pc_of_launch h]
  rfl

end Sys2Proof.Machine
end

section
/-! PROOFS. The encoder as a number, the rows of the opcode map as sets of words, and from these the statements on the
encoding (spec/30_encoding.md). -/

namespace Sys2Proof

open Sys2Proof.Machine

/-! ## The encoder and the decoder are inverse -/

/-- A field at bit `lo` counts `2 ^ lo` times (R71). -/
theorem toNat_place {k : Nat} (v : BitVec k) (lo : Nat) (hfit : k + lo ≤ 16) :
    (place v lo).toNat = 2 ^ lo * v.toNat := by
  have hlt : 2 ^ lo * v.toNat < 2 ^ 16 := by
    calc 2 ^ lo * v.toNat < 2 ^ lo * 2 ^ k := Nat.mul_lt_mul_of_pos_left v.isLt (Nat.two_pow_pos lo)
      _ = 2 ^ (k + lo) := by rw [← Nat.pow_add, Nat.add_comm]
      _ ≤ 2 ^ 16 := Nat.pow_le_pow_right (by decide) hfit
  have hk : v.toNat < 2 ^ 16 := lt_of_le_of_lt (Nat.le_mul_of_pos_left _ (Nat.two_pow_pos lo)) hlt
  rw [place, BitVec.toNat_shiftLeft, Nat.shiftLeft_eq, BitVec.toNat_setWidth, Nat.mod_eq_of_lt hk, Nat.mul_comm,
    Nat.mod_eq_of_lt hlt]

/-- A field ORed into bits that are free adds to the word. -/
theorem toNat_or_place {w : Word} {k : Nat} (v : BitVec k) (lo : Nat) (hfit : k + lo ≤ 16)
    (hfree : w.extractLsb' lo k = 0) : (w ||| place v lo).toNat = w.toNat + 2 ^ lo * v.toNat := by
  have hand : w &&& place v lo = 0 := by
    ext j hj
    have hbit := congrArg (BitVec.getLsbD · (j - lo)) hfree
    simp [place] at hbit ⊢
    grind
  rw [← BitVec.add_eq_or_of_and_eq_zero _ _ hand, BitVec.toNat_add_of_and_eq_zero hand, toNat_place v lo hfit]

/-- The bits below a placed field are free, and those above it. -/
theorem extractLsb'_or_place {w : Word} {k : Nat} (v : BitVec k) {lo lo' len : Nat} (hfree : w.extractLsb' lo' len = 0)
    (hapart : lo' + len ≤ lo ∨ lo + k ≤ lo') : (w ||| place v lo).extractLsb' lo' len = 0 := by
  ext j hj
  have hbit := congrArg (BitVec.getLsbD · j) hfree
  simp [place] at hbit ⊢
  grind

/-- The encoder puts each field at its place value (R72, R77). -/
theorem encode_toNat (i : Instr) : (encode i).toNat = i.wordNat := by
  cases i with
  | halt | cls | ret => rfl
  | jp nnn | call nnn | ldx nnn =>
    rw [encode, toNat_or_place nnn 0 (by decide) (by decide), pow_zero, one_mul]
    rfl
  | sei x nn | snei x nn | ldi x nn | addi x nn | rnd x nn =>
    rw [encode, toNat_or_place nn 0 (by decide) (extractLsb'_or_place x (by decide) (by decide)),
      toNat_or_place x 8 (by decide) (by decide), pow_zero, one_mul]
    rfl
  | ser x y =>
    rw [encode, toNat_or_place y 4 (by decide) (extractLsb'_or_place x (by decide) (by decide)),
      toNat_or_place x 8 (by decide) (by decide)]
    rfl
  | drw x y n =>
    rw [encode, toNat_or_place n 0 (by decide)
        (extractLsb'_or_place y (extractLsb'_or_place x (by decide) (by decide)) (by decide)),
      toNat_or_place y 4 (by decide) (extractLsb'_or_place x (by decide) (by decide)),
      toNat_or_place x 8 (by decide) (by decide), pow_zero, one_mul]
    rfl
  | lddt x | ldst x =>
    rw [encode, toNat_or_place x 8 (by decide) (by decide)]
    rfl

/-- The bytes of a word, then anything, decode as the word does (R53, R70). -/
theorem decode_bytesOfWord {w : Word} {i : Instr} (h : decodeWord w = some i) (rest : List Byte) :
    decode (bytesOfWord w ++ rest) = .ok (i, rest) := by
  obtain ⟨hi, lo, hbytes, hword⟩ := bytesOfWord_eq w
  simp [hbytes, decode, hword, h]

/-- Settles O2: the word of an instruction has the value that decodes as it. -/
theorem decodeOfEncodeIsTheInstruction : Obligations.DecodeOfEncodeIsTheInstruction := by
  intro i
  have hdecode := decodeWord_of_toNat (encode_toNat i)
  exact ⟨hdecode, decode_bytesOfWord hdecode⟩

/-- Settles O3: a word and the word of what it decodes as have the same value. -/
theorem encodeOfDecodeIsTheWord : Obligations.EncodeOfDecodeIsTheWord := fun _ i h =>
  BitVec.eq_of_toNat_eq ((encode_toNat i).trans (toNat_eq_wordNat h).symm)

/-! ## The rows of the opcode map -/

theorem OpRow.covers_iff (r : OpRow) (w : Word) : r.covers w = true ↔ w &&& r.mask = r.pattern := beq_iff_eq

/-- A claimed word has the row's bits in a field that the row fixes whole. -/
theorem extractLsb'_eq_of_covers {r : OpRow} {w : Word} (h : r.covers w = true) {lo len : Nat}
    (hfixed : r.mask.extractLsb' lo len = BitVec.allOnes len) :
    w.extractLsb' lo len = r.pattern.extractLsb' lo len := by
  rw [← (r.covers_iff w).1 h, BitVec.extractLsb'_and, hfixed, BitVec.and_allOnes]

/-- Every row fixes OP. -/
theorem fieldOp_eq_of_covers {r : OpRow} (hr : r ∈ opcodeTable) {w : Word} (h : r.covers w = true) :
    (fieldOp w).toNat = r.pattern.toNat / 4096 := by
  have hfixed : ∀ r ∈ opcodeTable, r.mask.extractLsb' 12 4 = BitVec.allOnes 4 := by decide
  rw [← fieldOp_toNat]
  exact congrArg BitVec.toNat (extractLsb'_eq_of_covers h (hfixed r hr))

/-- A row claims only words that decode as its instruction (R77). -/
theorem decodeWord_of_covers {r : OpRow} (hr : r ∈ opcodeTable) {w : Word} (h : r.covers w = true) :
    ∃ i, decodeWord w = some i ∧ i.mnemonic = r.mnemonic := by
  have hop := fieldOp_eq_of_covers hr h
  simp only [opcodeTable, List.mem_cons, List.not_mem_nil, or_false] at hr
  obtain rfl | rfl | rfl | rfl | rfl | rfl | rfl | rfl | rfl | rfl | rfl | rfl | rfl | rfl | rfl := hr
  case inl | inr.inl | inr.inr.inl => -- HALT, CLS, RET fix the whole word
    have hw := (BitVec.and_allOnes (x := w)).symm.trans ((OpRow.covers_iff _ w).1 h)
    exact hw ▸ ⟨_, rfl, rfl⟩
  case inr.inr.inr.inr.inr.inr.inr.inl => -- SER fixes N
    have hn : fieldN w = 0 := extractLsb'_eq_of_covers h (lo := 0) (len := 4) rfl
    simp [decodeWord, hop, decodeOp5, hn, Instr.mnemonic]
  case inr.inr.inr.inr.inr.inr.inr.inr.inr.inr.inr.inr.inr.inl => -- LDDT fixes NN
    have hnn : fieldNN w = 0x15 := extractLsb'_eq_of_covers h (lo := 0) (len := 8) rfl
    simp [decodeWord, hop, decodeOpF, hnn, Instr.mnemonic]
  case inr.inr.inr.inr.inr.inr.inr.inr.inr.inr.inr.inr.inr.inr => -- LDST fixes NN
    have hnn : fieldNN w = 0x18 := extractLsb'_eq_of_covers h (lo := 0) (len := 8) rfl
    simp [decodeWord, hop, decodeOpF, hnn, Instr.mnemonic]
  all_goals -- the rows that fix OP alone
    simp [decodeWord, hop, Instr.mnemonic]

/-- An instruction's row claims its word (R77). -/
theorem exists_row_covers (i : Instr) :
    ∃ r ∈ opcodeTable, r.mnemonic = i.mnemonic ∧ r.covers (encode i) = true := by
  cases i with
  | halt => exact Laws.RowOf.halt
  | cls => exact Laws.RowOf.cls
  | ret => exact Laws.RowOf.ret
  | jp nnn => exact Laws.RowOf.jp nnn
  | call nnn => exact Laws.RowOf.call nnn
  | sei x nn => exact Laws.RowOf.sei x nn
  | snei x nn => exact Laws.RowOf.snei x nn
  | ser x y => exact Laws.RowOf.ser x y
  | ldi x nn => exact Laws.RowOf.ldi x nn
  | addi x nn => exact Laws.RowOf.addi x nn
  | ldx nnn => exact Laws.RowOf.ldx nnn
  | rnd x nn => exact Laws.RowOf.rnd x nn
  | drw x y n => exact Laws.RowOf.drw x y n
  | lddt x => exact Laws.RowOf.lddt x
  | ldst x => exact Laws.RowOf.ldst x

/-- No two rows bear the same mnemonic (R77, R81). -/
theorem eq_of_mnemonic_eq : ∀ r ∈ opcodeTable, ∀ r' ∈ opcodeTable, r.mnemonic = r'.mnemonic → r = r' := by
  decide

/-- The one row that claims a word is that of the instruction it decodes as (R75). -/
theorem matchingRows_of_decodeWord {w : Word} {i : Instr} (h : decodeWord w = some i) :
    ∃ r, matchingRows w = [r] ∧ r.mnemonic = i.mnemonic := by
  obtain ⟨r, hr, hname, hcovers⟩ := exists_row_covers i
  rw [encodeOfDecodeIsTheWord w i h] at hcovers
  have honly : ∀ r' ∈ opcodeTable, r'.covers w = (r' == r) := by
    intro r' hr'
    rw [Bool.eq_iff_iff, beq_iff_eq]
    refine ⟨fun hcovers' => ?_, fun heq => heq ▸ hcovers⟩
    obtain ⟨j, hj, hname'⟩ := decodeWord_of_covers hr' hcovers'
    obtain rfl : i = j := Option.some.inj (h.symm.trans hj)
    exact eq_of_mnemonic_eq r' hr' r hr (hname'.symm.trans hname.symm)
  have hnodup : opcodeTable.Nodup := by decide
  refine ⟨r, ?_, hname⟩
  rw [matchingRows, List.filter_congr honly, List.filter_beq, List.count_eq_one_of_mem hnodup hr, List.replicate_one]

/-- No row claims a word that decodes as nothing (R78). -/
theorem not_covers_of_decodeWord_none {w : Word} (h : decodeWord w = none) :
    ∀ r ∈ opcodeTable, ¬ r.covers w = true := by
  intro r hr hcovers
  obtain ⟨i, hi, -⟩ := decodeWord_of_covers hr hcovers
  rw [h] at hi
  cases hi

/-- Settles O4: the decoder answers the instruction of the one row that claims the word, or no row claims it. -/
theorem everyWordHasOneRowOrIsUnknown : Obligations.EveryWordHasOneRowOrIsUnknown := by
  intro w
  cases hdec : decodeWord w with
  | some i =>
    obtain ⟨r, hrows, hname⟩ := matchingRows_of_decodeWord hdec
    exact .inl ⟨i, r, rfl, hrows, hname⟩
  | none =>
    have hno := not_covers_of_decodeWord_none hdec
    exact .inr ⟨rfl, List.filter_eq_nil_iff.2 hno, List.any_eq_false.2 hno⟩

/-! ## The illegal words -/

theorem decodeOp0_eq_none_iff (w : Word) :
    decodeOp0 w = none ↔ w.toNat ≠ 0x0000 ∧ w.toNat ≠ 0x00E0 ∧ w.toNat ≠ 0x00EE := by
  unfold decodeOp0
  split_ifs <;> simp_all

theorem decodeOp5_eq_none_iff (w : Word) : decodeOp5 w = none ↔ (fieldN w).toNat ≠ 0 := by
  simp [decodeOp5, ← BitVec.toNat_inj]

theorem decodeOpF_eq_none_iff (w : Word) :
    decodeOpF w = none ↔ (fieldNN w).toNat ≠ 0x15 ∧ (fieldNN w).toNat ≠ 0x18 := by
  unfold decodeOpF
  split_ifs <;> simp_all [← BitVec.toNat_inj]

/-- The table of R78, row by row of the decoder. -/
theorem decodeWord_eq_none_iff (w : Word) : decodeWord w = none ↔
    (0x0001 ≤ w.toNat ∧ w.toNat ≤ 0x0FFF ∧ w.toNat ≠ 0x00E0 ∧ w.toNat ≠ 0x00EE) ∨
    (0x5000 ≤ w.toNat ∧ w.toNat ≤ 0x5FFF ∧ w.toNat % 16 ≠ 0) ∨
    (0x8000 ≤ w.toNat ∧ w.toNat ≤ 0x8FFF) ∨ (0x9000 ≤ w.toNat ∧ w.toNat ≤ 0x9FFF) ∨
    (0xB000 ≤ w.toNat ∧ w.toNat ≤ 0xBFFF) ∨ (0xE000 ≤ w.toNat ∧ w.toNat ≤ 0xEFFF) ∨
    (0xF000 ≤ w.toNat ∧ w.toNat % 256 ≠ 0x15 ∧ w.toNat % 256 ≠ 0x18) := by
  have hlt := w.isLt
  unfold decodeWord
  rw [fieldOp_toNat]
  split
  case h_1 => -- OP = 0, all but three whole words
    rw [decodeOp0_eq_none_iff]
    omega
  case h_6 => -- OP = 5, a nonzero low nibble
    rw [decodeOp5_eq_none_iff, fieldN_toNat]
    omega
  case h_12 => -- OP = 0xF, all but two low bytes
    rw [decodeOpF_eq_none_iff, fieldNN_toNat]
    omega
  case h_13 => -- OP = 8, 9, 0xB, 0xE
    simp only [imp_false, true_iff] at *
    omega
  all_goals -- the rows that fix OP alone
    simp only [reduceCtorEq, false_iff]
    omega

/-- Settles O6: the table of R78 is the decoder's, and its tick raises UnknownOpcode. -/
theorem illegalWordsAreExactlyTheTabledOnes : Obligations.IllegalWordsAreExactlyTheTabledOnes :=
  ⟨decodeWord_eq_none_iff, fun _ h hdec => ⟨_, step_unknown h hdec, rfl, rfl⟩⟩

/-! ## The fields and the sample words -/

/-- Settles O5: each field as a number is a quotient and remainder of the word, and so is its high byte. -/
theorem fieldsAreTheTabledBits : Obligations.FieldsAreTheTabledBits := by
  intro w
  obtain ⟨hi, lo, hbytes, hword⟩ := bytesOfWord_eq w
  have hhi : (w.extractLsb' 8 8).toNat = 16 * (fieldOp w).toNat + (fieldX w).toNat := by
    have := w.isLt
    rw [BitVec.extractLsb'_toNat, Nat.shiftRight_eq_div_pow, fieldOp_toNat, fieldX_toNat]
    omega
  have hnnn := fieldNNN_eq_x_nn w
  have hnn := fieldNN_eq_y_n w
  obtain ⟨rfl, rfl⟩ : w.extractLsb' 8 8 = hi ∧ w.extractLsb' 0 8 = lo := by simpa [bytesOfWord] using hbytes
  exact ⟨fieldOp_toNat w, fieldX_toNat w, fieldY_toNat w, fieldN_toNat w, fieldNN_toNat w, fieldNNN_toNat w, hnn,
    by omega, _, _, rfl, hhi, rfl, hword⟩

/-- Settles O1: the decoder evaluated on each word. -/
theorem sampleWordsDecodeAsTabled : Obligations.SampleWordsDecodeAsTabled := by
  unfold Obligations.SampleWordsDecodeAsTabled
  decide

end Sys2Proof
end

section
/-! PROOFS. How a tick ends: in its terminal event, raised on what the start of the tick has written, or in the effect
of its instruction. From this the statements on the tick (spec/40_cycle.md) and on terminal events
(spec/60_exceptions.md). -/

namespace Sys2Proof.Machine

/-! ## The start of a tick -/

/-- What the start of a tick has written when its terminal event comes or its instruction runs: nothing if the stop
request is asserted, the used-up stop sample if `pc` is past 0xFFE, and else the fetch too (R92, R93, R94). -/
def State.begun (s : State) : State :=
  if s.stopAsserted then s else if 0xFFE < s.pc.toNat then s.sampleStop else s.fetched

/-- The fetch written out in fields (R93, R202). -/
theorem State.fetched_eq_fields (s : State) :
    s.fetched = { s with ir := s.fetchWord, ports := { s.ports with
      stops := s.ports.stops.tail
      trace := if s.ports.debug then s.fetchWord :: s.ports.trace else s.ports.trace } } := by
  rw [State.fetched_eq, Ports.showWord_eq]

/-- The start of a tick writes `ir`, the stop samples and the trace, and nothing else. -/
theorem State.begun_eq_fields (s : State) : ∃ w stops trace,
    s.begun = { s with ir := w, ports := { s.ports with stops := stops, trace := trace } } := by
  unfold State.begun
  split_ifs
  · exact ⟨_, _, _, rfl⟩
  · exact ⟨_, _, _, rfl⟩
  · exact ⟨_, _, _, s.fetched_eq_fields⟩

theorem State.begun_of_stop {s : State} (hstop : s.stopAsserted = true) : s.begun = s := if_pos hstop

theorem State.begun_of_pc {s : State} (hstop : s.stopAsserted = false) (hpc : 0xFFE < s.pc.toNat) :
    s.begun = s.sampleStop := by
  simp [State.begun, hstop, hpc]

theorem State.begun_of_fetches {s : State} (h : s.fetches) : s.begun = s.fetched := by
  obtain ⟨-, hstop, hpc⟩ := h
  simp [State.begun, hstop, Nat.not_lt.2 hpc]

/-- Where no fetch is made `ir` keeps its word (R185). -/
theorem State.begun_ir_of_not_fetches {s : State} (hrun : s.run = .running) (h : ¬ s.fetches) : s.begun.ir = s.ir := by
  cases hstop : s.stopAsserted with
  | true => rw [State.begun_of_stop hstop]
  | false =>
    have hpc : 0xFFE < s.pc.toNat := by
      by_contra hpc
      exact h ⟨hrun, hstop, Nat.not_lt.1 hpc⟩
    rw [State.begun_of_pc hstop hpc]
    rfl

/-! ## The terminal event of a tick -/

theorem State.tickCause_of_stop {s : State} (hstop : s.stopAsserted = true) : s.tickCause = .externalStop :=
  if_pos hstop

theorem State.tickCause_of_pc {s : State} (hstop : s.stopAsserted = false) (hpc : 0xFFE < s.pc.toNat) :
    s.tickCause = .fetchBounds := by
  simp [State.tickCause, hstop, hpc]

theorem State.tickCause_of_unknown {s : State} (h : s.fetches) (hdec : decodeWord s.fetchWord = none) :
    s.tickCause = .unknownOpcode := by
  obtain ⟨-, hstop, hpc⟩ := h
  simp [State.tickCause, hstop, Nat.not_lt.2 hpc, hdec]

theorem State.tickCause_of_runs {s : State} {i : Instr} (h : s.runs i) : s.tickCause = s.instrCause i := by
  obtain ⟨⟨-, hstop, hpc⟩, hdec⟩ := h
  simp [State.tickCause, hstop, Nat.not_lt.2 hpc, hdec]

@[simp] theorem State.fetched_instrCause (s : State) (i : Instr) : s.fetched.instrCause i = s.instrCause i := by
  cases i <;> rfl

/-! ## The end of a tick -/

/-- A tick ends in the first terminal event that applies, or none applies and its instruction has its effect (R189). -/
theorem step_raise_or_effect {s t : State} (h : step s = .next t) :
    (s.tickCause ≠ .none ∧ t = s.begun.raise s.tickCause) ∨
      s.tickCause = .none ∧ ∃ i, s.runs i ∧ s.instrCause i = .none ∧ t = (s.fetched.effect i).finishTick := by
  obtain ⟨hrun, hcases⟩ := step_cases h
  obtain ⟨hstop, rfl⟩ | ⟨hstop, hpc, rfl⟩ | ⟨hstop, hpc, hdec, rfl⟩ | ⟨hstop, hpc, i, u, hdec, hexec, rfl⟩ := hcases
  · left
    simp [State.tickCause_of_stop hstop, State.begun_of_stop hstop]
  · left
    simp [State.tickCause_of_pc hstop hpc, State.begun_of_pc hstop hpc]
  · left
    have hf : s.fetches := ⟨hrun, hstop, hpc⟩
    simp [State.tickCause_of_unknown hf hdec, State.begun_of_fetches hf]
  · have hi : s.runs i := ⟨⟨hrun, hstop, hpc⟩, hdec⟩
    rw [State.tickCause_of_runs hi, State.begun_of_fetches hi.1, ← s.fetched_instrCause]
    rcases exec_raise_or_effect hexec with ⟨hfault, rfl⟩ | ⟨hnone, rfl⟩
    · exact .inl ⟨hfault, State.finishTick_halted rfl⟩
    · exact .inr ⟨hnone, i, hi, hnone, rfl⟩

/-- A tick that ends HALTED ends in its terminal event (R184). -/
theorem step_halted {s t : State} (h : step s = .next t) (hrun : t.run = .halted) :
    s.tickCause ≠ .none ∧ t = s.begun.raise s.tickCause := by
  rcases step_raise_or_effect h with hraise | ⟨-, i, hi, -, rfl⟩
  · exact hraise
  · obtain ⟨⟨hrunning, -⟩, -⟩ := hi
    simp [hrunning] at hrun

theorem run_of_step {s t : State} (h : step s = .next t) : s.run = .running := (step_cases h).1

/-- Every RUNNING state has a tick (R101). -/
theorem step_total {s : State} (hrun : s.run = .running) : ∃ t, step s = .next t := by
  cases hstop : s.stopAsserted with
  | true => exact ⟨_, step_externalStop hrun hstop⟩
  | false =>
    by_cases hpc : 0xFFE < s.pc.toNat
    · exact ⟨_, step_fetchBounds hrun hstop hpc⟩
    · have hf : s.fetches := ⟨hrun, hstop, Nat.not_lt.1 hpc⟩
      cases hdec : decodeWord s.fetchWord with
      | none => exact ⟨_, step_unknown hf hdec⟩
      | some i =>
        obtain ⟨u, hexec⟩ := exec_next i s.fetched
        exact ⟨_, step_eq_finishTick ⟨hf, hdec⟩ hexec⟩

/-- A HALTED machine has no tick (R91). -/
theorem step_of_halted {s : State} (hrun : s.run = .halted) : step s = .fault .machineHalted := by
  simp [step, State.startTick, hrun]

@[simp] theorem State.effect_cause (s : State) (i : Instr) : (s.effect i).cause = s.cause := by
  cases i <;> rfl

theorem RunState.eq_running {r : RunState} (h : r ≠ .halted) : r = .running := by
  cases r with
  | running => rfl
  | halted => exact absurd rfl h

/-- The end of a tick written out in fields (R98, R99). -/
theorem State.finishTick_eq_fields (s : State) :
    s.finishTick = if s.run = .halted then s else { s with
      redraw := false
      ports := { s.ports with frames := if s.redraw then s.fb :: s.ports.frames else s.ports.frames }
      dt := if s.dt = 0 then 0 else s.dt - 1
      st := if s.st = 0 then 0 else s.st - 1 } := by
  have hports : (if s.redraw then { s.ports with frames := s.fb :: s.ports.frames } else s.ports) =
      { s.ports with frames := if s.redraw then s.fb :: s.ports.frames else s.ports.frames } := by
    split <;> rfl
  by_cases hrun : s.run = .halted
  · rw [State.finishTick_halted hrun, if_pos hrun]
  · rw [State.finishTick_running (RunState.eq_running hrun), if_neg hrun, hports]
    rfl

/-! ## The cause codes -/

/-- The causes in the order of their codes (R181). -/
def Cause.all : List Cause :=
  [.none, .haltZero, .externalStop, .unknownOpcode, .fetchBounds, .stackOverflow, .stackUnderflow, .spriteXRange,
    .spriteRowRange, .spriteMemBounds]

theorem Cause.getElem?_all_code (c : Cause) : Cause.all[c.code.toNat]? = some c := by
  cases c <;> rfl

theorem Cause.code_injective : Function.Injective Cause.code := by
  intro c d hcode
  have hc := c.getElem?_all_code
  rw [hcode, d.getElem?_all_code] at hc
  exact (Option.some.inj hc).symm

/-! ## The statements on the tick -/

/-- Settles O9: the end of a tick and the fetched state, both written out in fields. -/
theorem stepRunsTheDecodedInstruction : Obligations.StepRunsTheDecodedInstruction := by
  intro s i hi
  obtain ⟨u, hexec⟩ := exec_next i s.fetched
  rw [step_eq_finishTick hi hexec, State.finishTick_eq_fields, ← State.fetched_eq_fields, hexec]

/-- Settles O10: the tick looks at `run` first. -/
theorem haltedMachineHasNoTick : Obligations.HaltedMachineHasNoTick := fun _ => step_of_halted

/-- Settles O11: each way a tick can begin has an answer, and so has every instruction. -/
theorem everyRunningStateHasATick : Obligations.EveryRunningStateHasATick := fun _ => step_total

/-- Settles O12: the first stop sample is the request of this tick. -/
theorem stopRequestEndsTheRun : Obligations.StopRequestEndsTheRun := by
  intro s hrun hhead
  have hstop : s.stopAsserted = true := by rw [State.stopAsserted, List.headD_eq_head?_getD, hhead]; rfl
  exact step_externalStop hrun hstop

/-- Settles O13: nothing is fetched, so only the stop sample is used up. -/
theorem fetchPastMemoryEndsTheRun : Obligations.FetchPastMemoryEndsTheRun := fun _ => step_fetchBounds

/-- Settles O14: the unknown word is raised on the fetched state, which then has no tick. -/
theorem unknownWordEndsTheRun : Obligations.UnknownWordEndsTheRun := by
  refine ⟨fun s h hdec => ?_, fun s i h hdec => ?_, fun s t u h hdec hst => ?_⟩
  · rw [step_unknown h hdec, State.fetched_eq_fields]
    rfl
  · obtain ⟨u, hexec⟩ := exec_next i s.fetched
    exact ⟨u, hexec, step_eq_finishTick ⟨h, hdec⟩ hexec⟩
  · rw [step_unknown h hdec] at hst
    cases hst
    rw [step_of_halted rfl]
    exact nofun

/-- Settles O27: HALT raises HaltZero, and the tick of the zero word raises it on the fetched state. -/
theorem haltEndsTheRun : Obligations.HaltEndsTheRun := by
  refine ⟨fun w => (decodeWord_eq_some_iff w .halt).trans (BitVec.toNat_inj (y := 0x0000)), fun s => rfl,
    fun s h hword => ?_⟩
  rw [step_zeroWord h hword, State.fetched_eq_fields, hword]
  rfl

/-! ## The statements on terminal events -/

/-- Settles O15: the event is raised on what the start of the tick has written, which is `ir` and ports only. -/
theorem terminalEventWritesOnlyRunAndCause : Obligations.TerminalEventWritesOnlyRunAndCause := by
  refine ⟨fun c s => rfl, fun s t h hhalted => ?_⟩
  obtain ⟨hcause, rfl⟩ := step_halted h hhalted
  have hcode : s.tickCause.code ≠ 0 := fun h0 => hcause (Cause.code_injective h0)
  have hir : s.fetches → s.begun.ir = s.fetchWord := fun hf => by rw [State.begun_of_fetches hf, State.fetched_ir]
  have hir' : ¬ s.fetches → s.begun.ir = s.ir := State.begun_ir_of_not_fetches (run_of_step h)
  obtain ⟨w, stops, trace, hbegun⟩ := s.begun_eq_fields
  rw [hbegun] at hir hir' ⊢
  exact ⟨rfl, hcode, rfl, rfl, rfl, rfl, rfl, rfl, rfl, rfl, rfl, rfl, rfl, rfl, rfl, hir, hir'⟩

/-- Settles O16: a terminal event raises its cause and halts, and an effect keeps `run` and `cause`. -/
theorem terminalEventIsTheFirstThatApplies : Obligations.TerminalEventIsTheFirstThatApplies := by
  intro s t h
  have hrun := run_of_step h
  rcases step_raise_or_effect h with ⟨hcause, rfl⟩ | ⟨hnone, i, -, -, rfl⟩
  · simp [hcause]
  · simp [hrun, hnone]

/-- Settles O17: the codes are read off, and the list of causes takes each code back to its cause. -/
theorem causeCodesAreTheTabledOnes : Obligations.CauseCodesAreTheTabledOnes :=
  ⟨rfl, rfl, rfl, rfl, rfl, rfl, rfl, rfl, rfl, rfl, fun _ _ hcode => Cause.code_injective hcode⟩

end Sys2Proof.Machine
end

section
/-! PROOFS. What the effect of an instruction keeps, field by field, and what a finished tick makes of it. From this the
statements on who writes what (spec/10_state.md), on frame delivery and on the timers (spec/40_cycle.md). -/

namespace Sys2Proof.Machine

/-! ## What an effect keeps -/

section
variable (s : State) (i : Instr)

@[simp] theorem State.effect_mem : (s.effect i).mem = s.mem := by cases i <;> rfl
@[simp] theorem State.effect_frames : (s.effect i).ports.frames = s.ports.frames := by cases i <;> rfl

/-- CLS and DRW request a redraw and no other instruction writes the flag (R35). -/
@[simp] theorem State.effect_redraw : (s.effect i).redraw = (isDisplay i || s.redraw) := by
  cases i <;> simp [State.effect, isDisplay]

variable {s i}

/-- Only LDX writes `I` (R23). -/
theorem State.writer_of_effect_I_ne (h : (s.effect i).I ≠ s.I) : ∃ nnn, i = .ldx nnn := by
  cases i with
  | ldx nnn => exact ⟨nnn, rfl⟩
  | _ => exact absurd rfl h

/-- Only CALL and RET write the stack (R28). -/
theorem State.writer_of_effect_stack_ne (h : (s.effect i).sp ≠ s.sp ∨ (s.effect i).stack ≠ s.stack) :
    i = .ret ∨ ∃ nnn, i = .call nnn := by
  cases i with
  | ret => exact .inl rfl
  | call nnn => exact .inr ⟨nnn, rfl⟩
  | _ => exact h.elim (absurd rfl) (absurd rfl)

/-- Only CLS and DRW write the framebuffer (R34). -/
theorem State.writer_of_effect_fb_ne (h : (s.effect i).fb ≠ s.fb) : i = .cls ∨ ∃ x y n, i = .drw x y n := by
  cases i with
  | cls => exact .inl rfl
  | drw x y n => exact .inr ⟨x, y, n, rfl⟩
  | _ => exact absurd rfl h

theorem State.effect_fb (h : isDisplay i = false) : (s.effect i).fb = s.fb := by
  by_contra hne
  obtain rfl | ⟨x, y, n, rfl⟩ := State.writer_of_effect_fb_ne hne <;> cases h

/-- Only RND consumes a draw (R134). -/
theorem State.consumer_of_effect_draws_ne (h : (s.effect i).ports.draws ≠ s.ports.draws ∨
    (s.effect i).ports.drawCount ≠ s.ports.drawCount) : ∃ x nn, i = .rnd x nn := by
  cases i with
  | rnd x nn => exact ⟨x, nn, rfl⟩
  | _ => exact h.elim (absurd rfl) (absurd rfl)

end

/-! ## What the parts of a tick keep of the ports -/

@[simp] theorem State.fetched_draws (s : State) : s.fetched.ports.draws = s.ports.draws := by
  rw [State.fetched_eq_fields]

@[simp] theorem State.fetched_drawCount (s : State) : s.fetched.ports.drawCount = s.ports.drawCount := by
  rw [State.fetched_eq_fields]

@[simp] theorem State.finishTick_draws (s : State) : s.finishTick.ports.draws = s.ports.draws := by
  rw [State.finishTick_eq_fields]; split <;> rfl

@[simp] theorem State.finishTick_drawCount (s : State) : s.finishTick.ports.drawCount = s.ports.drawCount := by
  rw [State.finishTick_eq_fields]; split <;> rfl

/-- The end of a completed tick clears the flag (R98). -/
theorem State.finishTick_redraw {s : State} (hrun : s.run = .running) : s.finishTick.redraw = false := by
  rw [State.finishTick_running hrun]

/-- The end of a completed tick delivers the framebuffer if the flag is set (R98). -/
theorem State.finishTick_frames {s : State} (hrun : s.run = .running) :
    s.finishTick.ports.frames = if s.redraw then s.fb :: s.ports.frames else s.ports.frames := by
  rw [State.finishTick_running hrun]
  split <;> rfl

/-! ## The statements on ticks that complete -/

/-- Settles O18: the flag that CLS and DRW set, and no other instruction, is what delivers the frame. -/
theorem frameDeliveredExactlyOnDisplayTicks : Obligations.FrameDeliveredExactlyOnDisplayTicks := by
  intro s t i hi hredraw h
  obtain rfl := completes_eq_effect hi h
  obtain ⟨⟨hrun, -⟩, -⟩ := hi
  have hrun' : (s.fetched.effect i).run = .running := by simpa using hrun
  refine ⟨State.finishTick_redraw hrun', ?_, fun hdisplay => ?_⟩
  · simp [State.finishTick_frames hrun', hredraw]
  · rw [State.finishTick_fb, State.effect_fb hdisplay, State.fetched_fb]

/-- Settles O19: a terminal event keeps the timers, and a completed tick counts down what its instruction leaves. -/
theorem timersStepOnEveryCompletedTick : Obligations.TimersStepOnEveryCompletedTick := by
  refine ⟨fun s t h hhalted => ?_, fun s t i hi h => ?_⟩
  · obtain ⟨-, rfl⟩ := step_halted h hhalted
    obtain ⟨w, stops, trace, hbegun⟩ := s.begun_eq_fields
    rw [hbegun]
    exact ⟨rfl, rfl⟩
  · obtain ⟨hdt, hst⟩ := h.timers_of_runs hi
    rw [hdt, hst, countDown_toNat, countDown_toNat]
    refine ⟨fun hno => ?_, fun x hx => ?_, fun hno => ?_, fun x hx => ?_⟩
    · rw [State.effect_dt _ hno, State.fetched_dt]
    · rw [hx]; rfl
    · rw [State.effect_st _ hno, State.fetched_st]
    · rw [hx]; rfl

/-! ## The statements on who writes what -/

/-- Settles O25: a terminal event keeps all four, and the effect of an instruction that is not the writer does too. -/
theorem specialStateIsWrittenOnlyByItsInstructions : Obligations.SpecialStateIsWrittenOnlyByItsInstructions := by
  intro s t h
  rcases step_raise_or_effect h with ⟨-, rfl⟩ | ⟨-, i, hi, -, rfl⟩
  · obtain ⟨w, stops, trace, hbegun⟩ := s.begun_eq_fields
    simp [hbegun]
  · simp only [State.finishTick_I, State.finishTick_sp, State.finishTick_stack, State.finishTick_fb,
      State.finishTick_draws, State.finishTick_drawCount, ← s.fetched_draws, ← s.fetched_drawCount]
    refine ⟨fun hne => ?_, fun hne => ?_, fun hne => ?_, fun hne => ?_⟩
    · obtain ⟨nnn, rfl⟩ := State.writer_of_effect_I_ne hne
      exact ⟨nnn, hi⟩
    · obtain rfl | ⟨nnn, rfl⟩ := State.writer_of_effect_stack_ne hne
      · exact .inl hi
      · exact .inr ⟨nnn, hi⟩
    · obtain rfl | ⟨x, y, n, rfl⟩ := State.writer_of_effect_fb_ne hne
      · exact .inl hi
      · exact .inr ⟨x, y, n, hi⟩
    · obtain ⟨x, nn, rfl⟩ := State.consumer_of_effect_draws_ne hne
      exact ⟨x, nn, hi⟩

/-- Settles O26: neither a terminal event nor an effect writes memory. -/
theorem memoryIsNeverWritten : Obligations.MemoryIsNeverWritten := by
  intro s t h
  have hmem : t.mem = s.mem := by
    rcases step_raise_or_effect h with ⟨-, rfl⟩ | ⟨-, i, -, -, rfl⟩
    · obtain ⟨w, stops, trace, hbegun⟩ := s.begun_eq_fields
      rw [hbegun]
      rfl
    · simp
  exact ⟨hmem, fun a => by rw [hmem]⟩

end Sys2Proof.Machine
end

section
/-! PROOFS. The call stack: when CALL and RET raise nothing, and what a push and a pop leave in the slots. From this the
statements on CALL and RET (spec/41_control_flow.md). -/

namespace Sys2Proof.Machine

/-! ## When CALL and RET raise nothing -/

theorem State.instrCause_ret_eq_none (s : State) : s.instrCause .ret = .none ↔ s.sp ≠ 0 := by
  simp [State.instrCause, ← BitVec.toNat_inj]

theorem State.instrCause_call_eq_none (s : State) (nnn : Addr) : s.instrCause (.call nnn) = .none ↔ s.sp ≠ 15 := by
  simp [State.instrCause, ← BitVec.toNat_inj]

/-- RET (R111). -/
theorem exec_ret {s : State} (hsp : s.sp ≠ 0) : exec .ret s = .next s.popPc :=
  exec_eq_effect (s.instrCause_ret_eq_none.2 hsp)

/-- RET on an empty stack (R111). -/
theorem exec_ret_underflow {s : State} (hsp : s.sp = 0) : exec .ret s = .next (s.raise .stackUnderflow) := if_pos hsp

/-- CALL (R113). -/
theorem exec_call {s : State} (nnn : Addr) (hsp : s.sp ≠ 15) :
    exec (.call nnn) s = .next ((s.push s.pc).writePc (nnn.setWidth 16)) :=
  exec_eq_effect ((s.instrCause_call_eq_none nnn).2 hsp)

/-- CALL on a full stack (R113). -/
theorem exec_call_overflow {s : State} (nnn : Addr) (hsp : s.sp = 15) :
    exec (.call nnn) s = .next (s.raise .stackOverflow) := if_pos hsp

/-! ## The stack pointer as a number -/

theorem toNat_sp_sub_one {sp : BitVec 4} (hsp : sp ≠ 0) : (sp - 1).toNat = sp.toNat - 1 := by
  bv_omega

theorem toNat_sp_add_one {sp : BitVec 4} (hsp : sp ≠ 15) : (sp + 1).toNat = sp.toNat + 1 := by
  bv_omega

/-! ## The slots -/

/-- A push writes the slot at `sp` only (R113). -/
theorem State.getElem_push_stack (s : State) (v : Word) {k : Nat} (hk : k < 16) :
    (s.push v).stack[k] = if k = s.sp.toNat then v else s.stack[k] := by
  simp only [State.push_stack, Vector.getElem_set, eq_comm (a := k)]

/-- A pop zeroes the slot below `sp` and writes no other (R111). -/
theorem State.getElem_popPc_stack {s : State} (hsp : s.sp ≠ 0) {k : Nat} (hk : k < 16) :
    s.popPc.stack[k] = if k = s.sp.toNat - 1 then 0 else s.stack[k] := by
  simp only [State.popPc_stack, Vector.getElem_set, toNat_sp_sub_one hsp, eq_comm (a := k)]

/-- A pop undoes a push into a slot that held 0, wherever `pc` went in between (R227). -/
theorem State.popPc_writePc_push {s : State} (hslot : s.readSlot s.sp = 0) (target : Word) :
    ((s.push s.pc).writePc target).popPc =
      { (s.push s.pc).writePc target with sp := s.sp, pc := s.pc, stack := s.stack } := by
  have hsp : ((s.push s.pc).writePc target).sp - 1 = s.sp := BitVec.add_sub_cancel s.sp 1
  have hpc : ((s.push s.pc).writePc target).readSlot s.sp = s.pc := s.readSlot_push s.pc
  have hstack : (s.stack.set s.sp.toNat s.pc s.sp.isLt).set s.sp.toNat 0 s.sp.isLt = s.stack := by
    rw [Vector.set_set, ← hslot]
    exact Vector.set_getElem_self s.sp.isLt
  rw [State.popPc, hsp, hpc]
  exact congrArg (fun stk => { (s.push s.pc).writePc target with sp := s.sp, pc := s.pc, stack := stk }) hstack

/-! ## The statements -/

/-- Settles O28: the effect of RET is a pop, and with `sp = 0` it raises StackUnderflow. -/
theorem retPopsThePc : Obligations.RetPopsThePc :=
  ⟨fun w => (decodeWord_eq_some_iff w .ret).trans (BitVec.toNat_inj (y := 0x00EE)),
    fun s hsp => ⟨s.popPc.stack, exec_ret hsp, toNat_sp_sub_one hsp, fun _ hk => State.getElem_popPc_stack hsp hk⟩,
    fun _ => exec_ret_underflow⟩

/-- Settles O30: the effect of CALL is a push of `pc` and a jump, and with `sp = 15` it raises StackOverflow. -/
theorem callPushesItsOwnAddress : Obligations.CallPushesItsOwnAddress :=
  ⟨fun w nnn => decodeWord_eq_some_iff w (.call nnn),
    fun nnn s hsp => ⟨(s.push s.pc).stack, exec_call nnn hsp, toNat_sp_add_one hsp,
      fun _ hk => s.getElem_push_stack s.pc hk⟩,
    fun nnn _ => exec_call_overflow nnn⟩

/-- Settles O31: the CALL leaves `sp` above 0, so the RET pops what the CALL pushed. -/
theorem retAfterCallReturnsToTheCall : Obligations.RetAfterCallReturnsToTheCall := by
  intro nnn s t hsp hslot h
  rw [exec_call nnn hsp] at h
  cases h
  have hsp' : s.sp + 1 ≠ 0 := by bv_omega
  rw [exec_ret hsp', State.popPc_writePc_push hslot]

/-- Settles O49: a push, a jump and a pop write `pc`, `sp` and one slot, and a stack fault `run` and `cause`. -/
theorem frameOfCallAndRet : Obligations.FrameOfCallAndRet := by
  intro i s t hi h
  obtain ⟨hregs, htimers, hdisplay, hmem, hports⟩ :
      SameRegs s t ∧ SameTimers s t ∧ SameDisplay s t ∧ SameMemory s t ∧ SamePorts s t := by
    rcases exec_raise_or_effect h with ⟨-, rfl⟩ | ⟨-, rfl⟩ <;> obtain ⟨nnn, rfl⟩ | rfl := hi <;>
      exact ⟨⟨rfl, rfl⟩, ⟨rfl, rfl⟩, ⟨rfl, rfl⟩, fun _ => rfl, ⟨rfl, rfl⟩⟩
  refine ⟨hregs, htimers, hdisplay, hmem, hports, fun hret hsp => ?_, fun hret hsp => ?_, fun hcall hsp => ?_,
    fun hcall hsp => ?_⟩
  · rw [hret, exec_ret hsp] at h
    cases h
    exact ⟨⟨rfl, rfl⟩, fun k hk hne => by rw [State.getElem_popPc_stack hsp, if_neg hne]⟩
  · rw [hret, exec_ret_underflow hsp] at h
    cases h
    exact ⟨⟨rfl, rfl⟩, rfl⟩
  · obtain ⟨nnn, rfl⟩ := hi.resolve_right hcall
    rw [exec_call nnn hsp] at h
    cases h
    exact ⟨⟨rfl, rfl⟩, fun k hk hne => by rw [State.writePc_stack, State.getElem_push_stack, if_neg hne]⟩
  · obtain ⟨nnn, rfl⟩ := hi.resolve_right hcall
    rw [exec_call_overflow nnn hsp] at h
    cases h
    exact ⟨⟨rfl, rfl⟩, rfl⟩

end Sys2Proof.Machine
end

section
/-! PROOFS. The invariants of the tick boundary: a load meets them, a terminal event keeps them, an effect keeps all but
those of the display, and the end of the tick makes these good. From this the statements on launch and on every tick
(spec/10_state.md, spec/70_reset_and_hazards.md). -/

namespace Sys2Proof.Machine

/-! ## Launch -/

theorem inv_reset : State.reset.Inv :=
  ⟨by decide, by decide, by decide, by decide, by decide, by decide, by decide, by decide⟩

/-- A load writes memory only, byte by byte, so the canonical form holds (R222). -/
theorem inv_of_launch {img : List Byte} {s : State} (h : launch img = .ok s) : s.Inv := by
  obtain ⟨-, rfl⟩ := launch_eq_ok_iff.1 h
  obtain ⟨hindex, hfree, hslots, hpc, hredraw, hcause, -, hshown⟩ := inv_reset
  exact ⟨hindex, hfree, hslots, hpc, hredraw, hcause, Memory.ofImage_wf img, hshown⟩

/-! ## A terminal event -/

/-- The start of a tick and a terminal event write nothing the invariants speak of but `run` and `cause`, and these
together (R184, R185). -/
theorem State.Inv.begun_raise {s : State} (h : s.Inv) {c : Cause} (hc : c ≠ .none) : (s.begun.raise c).Inv := by
  obtain ⟨hindex, hfree, hslots, hpc, -, -, hmem, hshown⟩ := h
  obtain ⟨w, stops, trace, hbegun⟩ := s.begun_eq_fields
  rw [hbegun]
  exact ⟨hindex, hfree, hslots, hpc, nofun, by simp [hc], hmem, hshown⟩

/-! ## The effect of an instruction -/

theorem State.Inv.fetched {s : State} (h : s.Inv) : s.fetched.Inv := by
  obtain ⟨hindex, hfree, hslots, hpc, hredraw, hcause, hmem, hshown⟩ := h
  rw [State.fetched_eq_fields]
  exact ⟨hindex, hfree, hslots, hpc, hredraw, hcause, hmem, hshown⟩

section
variable {s : State} (h : s.Inv)
include h

/-- LDX loads a 12-bit address (R133). -/
theorem State.Inv.effect_index (i : Instr) : (s.effect i).I.toNat ≤ 0xFFF := by
  cases i with
  | ldx nnn => exact (toNat_setWidth_addr nnn).trans_le (by omega)
  | _ => exact h.index

/-- A slot is at most 0xFFE, a target at most 0xFFF, and `pc` advances by at most 4 (R27). -/
theorem State.Inv.effect_pc (hpc : s.pc.toNat ≤ 0xFFE) (i : Instr) : (s.effect i).pc.toNat ≤ 0x1002 := by
  have hadd2 : (s.pc + 2).toNat ≤ 0x1002 := by bv_omega
  have hskip (c : Bool) : (s.pc + skipBy c).toNat ≤ 0x1002 := by
    rw [add_skipBy]
    split <;> bv_omega
  cases i with
  | halt => exact h.pcBound
  | ret => exact (h.slots _ (s.sp - 1).isLt).trans (by decide)
  | jp nnn | call nnn => exact (toNat_setWidth_addr nnn).trans_le (by omega)
  | sei | snei | ser => exact hskip _
  | _ => exact hadd2

/-- A CALL fills the lowest free slot and a RET frees the one below (R30). -/
theorem State.Inv.effect_freeSlots {i : Instr} (hnone : s.instrCause i = .none) {k : Nat} (hk : k < 16)
    (hfree : (s.effect i).sp.toNat ≤ k) : (s.effect i).stack[k] = 0 := by
  cases i with
  | ret =>
    have hsp := s.instrCause_ret_eq_none.1 hnone
    have hle : s.sp.toNat - 1 ≤ k := toNat_sp_sub_one hsp ▸ hfree
    refine (State.getElem_popPc_stack hsp hk).trans ?_
    split
    · rfl
    · exact h.freeSlots k hk (by omega)
  | call nnn =>
    have hsp := (s.instrCause_call_eq_none nnn).1 hnone
    have hle : s.sp.toNat + 1 ≤ k := toNat_sp_add_one hsp ▸ hfree
    refine (s.getElem_push_stack s.pc hk).trans ?_
    rw [if_neg (by omega)]
    exact h.freeSlots k hk (by omega)
  | _ => exact h.freeSlots k hk hfree

/-- A CALL pushes the address it was fetched from (R30, R42). -/
theorem State.Inv.effect_slots (hpc : s.pc.toNat ≤ 0xFFE) {i : Instr} (hnone : s.instrCause i = .none) {k : Nat}
    (hk : k < 16) : (s.effect i).stack[k].toNat ≤ 0xFFE := by
  cases i with
  | ret =>
    have hslot := State.getElem_popPc_stack (s.instrCause_ret_eq_none.1 hnone) hk
    rw [show (s.effect .ret).stack[k] = _ from hslot]
    split
    · decide
    · exact h.slots k hk
  | call nnn =>
    rw [show (s.effect (.call nnn)).stack[k] = _ from s.getElem_push_stack s.pc hk]
    split
    · exact hpc
    · exact h.slots k hk
  | _ => exact h.slots k hk

/-- A completed tick shows what CLS or DRW drew, and otherwise the framebuffer is as it was (R102). -/
theorem State.Inv.effect_finishTick (hrun : s.run = .running) (hpc : s.pc.toNat ≤ 0xFFE) {i : Instr}
    (hnone : s.instrCause i = .none) : (s.effect i).finishTick.Inv := by
  have hrun' : (s.effect i).run = .running := by simpa using hrun
  have hredraw := h.noRedraw hrun
  constructor
  case index => simpa using h.effect_index i
  case freeSlots => simpa using fun k hk => h.effect_freeSlots hnone hk
  case slots => simpa using fun k hk => h.effect_slots hpc hnone hk
  case pcBound => simpa using h.effect_pc hpc i
  case noRedraw => exact fun _ => State.finishTick_redraw hrun'
  case causeNone => simpa using h.causeNone
  case memory => simpa using h.memory
  case shown =>
    rw [State.finishTick_fb, State.finishTick_frames hrun', State.effect_redraw, hredraw, Bool.or_false,
      State.effect_frames]
    split
    · rfl
    · rename_i hdisplay
      exact (State.effect_fb (Bool.eq_false_iff.2 hdisplay)).trans h.shown

end

/-! ## The statements -/

/-- Settles O59: a terminal event keeps the invariants, and so does the effect of an instruction in the fetched state
with the end of its tick. -/
theorem everyTickKeepsTheInvariants : Obligations.EveryTickKeepsTheInvariants := by
  intro s t h hstep
  rcases step_raise_or_effect hstep with ⟨hcause, rfl⟩ | ⟨-, i, ⟨⟨hrun, -, hpc⟩, -⟩, hnone, rfl⟩
  · exact h.begun_raise hcause
  · exact h.fetched.effect_finishTick hrun hpc (by rwa [State.fetched_instrCause])

/-- Settles O58: reset meets the invariants, and a load changes nothing of it but memory. -/
theorem launchMeetsTheInvariants : Obligations.LaunchMeetsTheInvariants := ⟨inv_reset, fun _ _ => inv_of_launch⟩

end Sys2Proof.Machine
end

section
/-! PROOFS. The flags of the Input Source and the debug toggle are read by no part of a tick but the trace output. From
this the statements on the keys and on the toggle (spec/60_exceptions.md). -/

namespace Sys2Proof.Machine

/-! ## The flags of the Input Source -/

/-- The state with other key flags and another exit flag. -/
def State.withKeys (s : State) (k : BitVec 16) (b : Bool) : State :=
  { s with ports := { s.ports with keys := k, exitFlag := b } }

theorem State.fetched_withKeys (s : State) (k : BitVec 16) (b : Bool) :
    (s.withKeys k b).fetched = s.fetched.withKeys k b := by
  rw [State.fetched_eq_fields, State.fetched_eq_fields]
  rfl

theorem State.effect_withKeys (s : State) (k : BitVec 16) (b : Bool) (i : Instr) :
    (s.withKeys k b).effect i = (s.effect i).withKeys k b := by
  cases i <;> rfl

theorem State.finishTick_withKeys (s : State) (k : BitVec 16) (b : Bool) :
    (s.withKeys k b).finishTick = s.finishTick.withKeys k b := by
  rw [State.finishTick_eq_fields, State.finishTick_eq_fields, apply_ite (State.withKeys · k b)]
  rfl

theorem tickPartsKeep_withKeys (k : BitVec 16) (b : Bool) : TickPartsKeep fun s s' => s' = s.withKeys k b where
  run := fun h => h ▸ rfl
  stopAsserted := fun h => h ▸ rfl
  pc := fun h => h ▸ rfl
  fetchWord := fun h => h ▸ rfl
  instrCause := fun i h => by cases h; cases i <;> rfl
  sampleStop := fun h => h ▸ rfl
  fetched := fun h => h ▸ State.fetched_withKeys _ k b
  effect := fun i h => h ▸ State.effect_withKeys _ k b i
  raise := fun _ h => h ▸ rfl
  finishTick := fun h => h ▸ State.finishTick_withKeys _ k b

/-- Settles O21: each part of a tick, run with other flags, answers the same state with these flags. -/
theorem keysAreNeverRead : Obligations.KeysAreNeverRead := by
  intro s t k b h
  obtain ⟨_, hstep, rfl⟩ := (tickPartsKeep_withKeys k b).step rfl h
  exact hstep

/-! ## The debug toggle -/

/-- The state with another toggle and another trace output. -/
def State.withTrace (s : State) (b : Bool) (trace : List Word) : State :=
  { s with ports := { s.ports with debug := b, trace := trace } }

/-- The second state is the first with the toggle at `b` and another trace output. -/
def SameButTrace (b : Bool) (s s' : State) : Prop := ∃ trace, s' = s.withTrace b trace

/-- The fetch is what reads the toggle, and it writes the trace by it (R202). -/
theorem SameButTrace.fetched {b : Bool} {s s' : State} (h : SameButTrace b s s') :
    SameButTrace b s.fetched s'.fetched := by
  obtain ⟨trace, rfl⟩ := h
  rw [State.fetched_eq_fields, State.fetched_eq_fields]
  exact ⟨_, rfl⟩

theorem SameButTrace.effect {b : Bool} {s s' : State} (i : Instr) (h : SameButTrace b s s') :
    SameButTrace b (s.effect i) (s'.effect i) := by
  obtain ⟨trace, rfl⟩ := h
  exact ⟨trace, by cases i <;> rfl⟩

theorem SameButTrace.finishTick {b : Bool} {s s' : State} (h : SameButTrace b s s') :
    SameButTrace b s.finishTick s'.finishTick := by
  obtain ⟨trace, rfl⟩ := h
  refine ⟨trace, ?_⟩
  rw [State.finishTick_eq_fields, State.finishTick_eq_fields, apply_ite (State.withTrace · b trace)]
  rfl

theorem tickPartsKeep_sameButTrace (b : Bool) : TickPartsKeep (SameButTrace b) where
  run := fun ⟨_, h⟩ => h ▸ rfl
  stopAsserted := fun ⟨_, h⟩ => h ▸ rfl
  pc := fun ⟨_, h⟩ => h ▸ rfl
  fetchWord := fun ⟨_, h⟩ => h ▸ rfl
  instrCause := fun i ⟨_, h⟩ => by cases h; cases i <;> rfl
  sampleStop := fun ⟨trace, h⟩ => ⟨trace, h ▸ rfl⟩
  fetched := SameButTrace.fetched
  effect := SameButTrace.effect
  raise := fun _ ⟨trace, h⟩ => ⟨trace, h ▸ rfl⟩
  finishTick := SameButTrace.finishTick

/-- Settles O22: the fetch shows its word by the toggle, and every part of a tick keeps the states the same but for the
toggle and the trace. -/
theorem debugToggleAltersOnlyTheTrace : Obligations.DebugToggleAltersOnlyTheTrace := by
  intro s t b h
  have hsame : SameButTrace b s (s.withTrace b s.ports.trace) := ⟨_, rfl⟩
  obtain ⟨_, hstep, trace, rfl⟩ := (tickPartsKeep_sameButTrace b).step hsame h
  refine ⟨_, hstep, rfl, fun hf => ?_⟩
  have hf' : (s.withTrace b s.ports.trace).fetches := hf
  obtain ⟨_, hstep', -, htrace⟩ := step_keeps_fetched_ir_trace hf'
  obtain rfl := Host.Outcome.next.inj (hstep.symm.trans hstep')
  exact htrace.trans (State.fetched_trace _)

end Sys2Proof.Machine
end

section
/-! PROOFS. RND: its effect written out in fields, and its result as a submask of NN (spec/42_register_ops.md). From
this the statement on RND. -/

namespace Sys2Proof.Machine

/-- RND (R134). -/
theorem exec_rnd (x : RegIdx) (nn : Byte) (s : State) :
    exec (.rnd x nn) s = .next { s with
      x := s.x.set x.toNat (nn &&& Draw.toByte s.ports.nextDraw) x.isLt
      pc := s.pc + 2
      ports := { s.ports with draws := s.ports.draws.tail, drawCount := s.ports.drawCount + 1 } } := rfl

/-- The register that RND names holds NN AND the draw (R134). -/
theorem readX_of_exec_rnd {x : RegIdx} {nn : Byte} {s t : State} (h : exec (.rnd x nn) s = .next t) :
    t.readX x = nn &&& Draw.toByte s.ports.nextDraw := by
  rw [exec_rnd] at h
  cases h
  exact Vector.getElem_set_self x.isLt

/-- The ready draw is the next one (R199). -/
theorem Ports.nextDraw_of_head? {p : Ports} {d : Draw} (h : p.draws.head? = some d) : p.nextDraw = d := by
  obtain ⟨rest, hdraws⟩ := List.head?_eq_some_iff.1 h
  rw [Ports.nextDraw, hdraws]

/-- What NN masks has no bit outside NN. -/
theorem Byte.and_and_not (nn v : Byte) : nn &&& v &&& ~~~nn = 0 := by
  rw [BitVec.and_assoc, BitVec.and_comm v, ← BitVec.and_assoc, BitVec.and_not_self]
  exact BitVec.zero_and

/-- NN leaves a byte without bits outside NN as it is. -/
theorem Byte.and_eq_of_and_not {nn m : Byte} (h : m &&& ~~~nn = 0) : nn &&& m = m := by
  ext j hj
  have hbit := congrArg (BitVec.getLsbD · j) h
  simp [hj] at hbit ⊢
  grind

/-- No draw is 0xFF, so no masked draw is (R134). -/
theorem Byte.and_toByte_ne (nn : Byte) (d : Draw) : nn &&& Draw.toByte d ≠ 0xFF := by
  intro h
  have hle := Draw.toByte_toNat_le d
  have hand : (nn &&& Draw.toByte d).toNat ≤ (Draw.toByte d).toNat := by
    rw [BitVec.toNat_and]
    exact Nat.and_le_right
  rw [h] at hand
  exact absurd (hand.trans hle) (by decide)

/-- Every byte but 0xFF is a draw (R134). -/
theorem exists_draw_toByte {m : Byte} (h : m ≠ 0xFF) : ∃ d : Draw, Draw.toByte d = m := by
  have hlt : m.toNat < Config.randMax + 1 := by
    simp only [Config.randMax]
    bv_omega
  exact ⟨⟨m.toNat, hlt⟩, BitVec.ofNat_toNat ..⟩

/-- Settles O38: the result is a draw masked by NN, and a submask of NN is the draw that gives it. -/
theorem rndMasksOneDraw : Obligations.RndMasksOneDraw := by
  refine ⟨fun w x nn => decodeWord_eq_some_iff w _, fun x nn s => ?_, fun x nn s t h => ?_, fun x nn m s hsub hne => ?_⟩
  · refine ⟨s.ports.nextDraw.val, Nat.le_of_lt_succ s.ports.nextDraw.isLt, exec_rnd x nn s, fun d hd => ?_⟩
    rw [Ports.nextDraw_of_head? hd]
  · rw [readX_of_exec_rnd h]
    exact ⟨Byte.and_and_not nn _, Byte.and_toByte_ne nn _⟩
  · obtain ⟨d, hd⟩ := exists_draw_toByte hne
    refine ⟨d, _, exec_rnd x nn _, (readX_of_exec_rnd (exec_rnd x nn _)).trans ?_⟩
    rw [Ports.nextDraw_of_head? (d := d) rfl, hd, Byte.and_eq_of_and_not hsub]

end Sys2Proof.Machine
end

section
/-! PROOFS. DRW of a sprite that fits, of one that does not and of one with no rows, and the frame of the two display
instructions. From these the statements on them (spec/43_display.md). -/

namespace Sys2Proof.Machine

/-! ## The two outcomes of a DRW -/

/-- A sprite fits exactly when its DRW raises nothing (R152, R157). -/
theorem State.fits_iff_instrCause (s : State) (x y : RegIdx) (n : Nibble) :
    s.fits x y n ↔ s.instrCause (.drw x y n) = .none := by
  rw [State.instrCause_drw_eq_none, spriteFault_eq_none, State.fits, ← BitVec.toNat_inj]
  rfl

/-- DRW of a sprite that fits (R151). -/
theorem exec_drw {x y : RegIdx} {n : Nibble} {s : State} (hfits : s.fits x y n) :
    exec (.drw x y n) s = .next { s with fb := s.drawn x y n, redraw := true, pc := s.pc + 2 } :=
  exec_eq_effect ((s.fits_iff_instrCause x y n).1 hfits)

/-- DRW of no rows fits anywhere and draws nothing (R157). -/
theorem exec_drw_zero (x y : RegIdx) (s : State) :
    exec (.drw x y 0) s = .next { s with redraw := true, pc := s.pc + 2 } :=
  exec_drw (.inl rfl)

/-- An instruction raises the terminal event that is its own in this state (R184). -/
theorem exec_of_instrCause {i : Instr} {s : State} {c : Cause} (h : s.instrCause i = c) (hc : c ≠ .none) :
    exec i s = .next (s.raise c) := by
  subst h
  exact exec_eq_raise hc

/-! ## A sprite row in pixels -/

/-- A sprite byte lights columns `vx` to `vx + 7` of its row, its most significant bit leftmost (R154). -/
theorem getLsbD_spriteRow (b : Byte) {vx c : Nat} (hvx : vx ≤ 56) (hc : c < 64) :
    (spriteRow b vx).getLsbD (63 - c) = (decide (vx ≤ c ∧ c < vx + 8) && b.getLsbD (7 - (c - vx))) := by
  by_cases hin : vx ≤ c ∧ c < vx + 8
  · have hcolumn := getLsbD_spriteRow_column b hvx (k := c - vx) (by omega)
    rw [Nat.add_sub_cancel' hin.1] at hcolumn
    rw [hcolumn, decide_eq_true hin, Bool.true_and]
  · rw [decide_eq_false hin, Bool.false_and, spriteRow, BitVec.getLsbD_shiftLeft, BitVec.getLsbD_setWidth]
    by_cases hright : 63 - c < 56 - vx
    · simp [hright]
    · simp [hright, BitVec.getLsbD_of_ge b (63 - c - (56 - vx)) (by omega)]

/-! ## The statements -/

/-- Settles O40: the loop of DRW, row by row. -/
theorem drwOrsTheSpriteIntoItsRows : Obligations.DrwOrsTheSpriteIntoItsRows :=
  ⟨fun w x y n => decodeWord_eq_some_iff w (.drw x y n),
    fun x y n s hfits => ⟨s.drawn x y n, exec_drw hfits, fun r hr => s.getElem_drawn x y n r hr⟩⟩

/-- Settles O41: the mask ORed into a row, bit by bit. -/
theorem drwSetsTheSpritePixels : Obligations.DrwSetsTheSpritePixels := by
  intro x y n s t hfits h c r hc hr
  rw [exec_drw hfits] at h
  cases h
  rw [State.pixel_drawn _ _ _ _ hc hr, State.spriteMask]
  by_cases hrow : (s.readX y).toNat ≤ r ∧ r < (s.readX y).toNat + n.toNat
  · have hn : n ≠ 0 := by rintro rfl; exact absurd hrow.2 (Nat.not_lt.2 hrow.1)
    obtain ⟨hvx, -, -⟩ := hfits.resolve_left hn
    rw [if_pos hrow, getLsbD_spriteRow _ hvx hc]
    simp [hrow]
  · rw [if_neg hrow]
    simp [hrow]

/-- Settles O42: each condition with the negations of those before it selects its fault. -/
theorem drwThatDoesNotFitChangesNothing : Obligations.DrwThatDoesNotFitChangesNothing := by
  intro x y n s hn
  refine ⟨fun hx => ?_, fun hx hy => ?_, fun hx hy hmem => ?_⟩
  · have hcause : s.instrCause (.drw x y n) = .spriteXRange := by simp [State.instrCause, hn, hx]
    exact exec_of_instrCause hcause nofun
  · have hcause : s.instrCause (.drw x y n) = .spriteRowRange := by simp [State.instrCause, hn, hx.not_gt, hy]
    exact exec_of_instrCause hcause nofun
  · have hcause : s.instrCause (.drw x y n) = .spriteMemBounds := by
      simp [State.instrCause, hn, hx.not_gt, hy.not_gt, hmem]
    exact exec_of_instrCause hcause nofun

/-- Settles O43: with no rows the loop of DRW leaves the framebuffer, and the end of the tick delivers it. -/
theorem drwOfNoRowsOnlyRedraws : Obligations.DrwOfNoRowsOnlyRedraws := by
  refine ⟨exec_drw_zero, fun x y s hi => ⟨_, step_eq_finishTick hi (exec_drw_zero x y _), ?_⟩⟩
  obtain ⟨⟨hrun, -⟩, -⟩ := hi
  simp [State.finishTick_running, hrun]

theorem isDisplay_iff (i : Instr) : isDisplay i = true ↔ i = .cls ∨ ∃ x y n, i = .drw x y n := by
  cases i <;> simp [isDisplay]

/-- Settles O52: CLS and a DRW that fits have their effect, which for DRW is in its rows, and a DRW that does not fit
raises its fault. -/
theorem frameOfDisplayInstructions : Obligations.FrameOfDisplayInstructions := by
  intro i s t hi h
  rw [isDisplay_iff] at hi
  obtain ⟨hregs, hstack, htimers, hmem, hports⟩ :
      SameRegs s t ∧ SameStack s t ∧ SameTimers s t ∧ SameMemory s t ∧ SamePorts s t := by
    rcases exec_raise_or_effect h with ⟨-, rfl⟩ | ⟨-, rfl⟩ <;> obtain rfl | ⟨x, y, n, rfl⟩ := hi <;>
      exact ⟨⟨rfl, rfl⟩, ⟨rfl, rfl⟩, ⟨rfl, rfl⟩, fun _ => rfl, ⟨rfl, rfl⟩⟩
  refine ⟨hregs, hstack, htimers, hmem, hports, fun hcls => ?_, fun x y n hdrw => ?_⟩
  · subst hcls
    cases h
    exact ⟨rfl, rfl⟩
  · subst hdrw
    rw [State.fits_iff_instrCause]
    rcases exec_raise_or_effect h with ⟨hfault, rfl⟩ | ⟨hnone, rfl⟩
    · exact ⟨fun hnone => absurd hnone hfault, fun _ => ⟨⟨rfl, rfl⟩, rfl⟩, fun _ _ _ => rfl⟩
    · exact ⟨fun _ => ⟨rfl, rfl⟩, fun hfault => absurd hnone hfault,
        fun r hr hout => (s.getElem_drawn x y n r hr).trans (if_neg hout)⟩

end Sys2Proof.Machine
end

section
/-! PROOFS. What the remaining instructions leave unchanged (spec/41_control_flow.md, spec/42_register_ops.md,
spec/44_timers.md), and that most instructions raise nothing (spec/60_exceptions.md). -/

namespace Sys2Proof.Machine

/-! ## Effects as writes -/

/-- A jump or a skip writes `pc` (R110). -/
theorem exec_jump_eq_writePc {i : Instr} {s t : State}
    (hi : (∃ nnn, i = .jp nnn) ∨ (∃ x nn, i = .sei x nn) ∨ (∃ x nn, i = .snei x nn) ∨ ∃ x y, i = .ser x y)
    (h : exec i s = .next t) : ∃ pc, t = s.writePc pc := by
  obtain ⟨nnn, rfl⟩ | ⟨x, nn, rfl⟩ | ⟨x, nn, rfl⟩ | ⟨x, y, rfl⟩ := hi <;> cases h <;> exact ⟨_, rfl⟩

/-- A register instruction writes `x[X]`, and RND consumes a draw (R131, R132, R134). -/
theorem exec_registerWriter_eq {i : Instr} {x : RegIdx} {nn : Byte} {s t : State}
    (hi : i = .ldi x nn ∨ i = .addi x nn ∨ i = .rnd x nn) (h : exec i s = .next t) : ∃ v ports,
      t = ((s.writeX x v).writePorts ports).advance 2 ∧
        (i ≠ .rnd x nn ∧ ports = s.ports ∨ i = .rnd x nn ∧ ports = s.ports.consumeDraw) := by
  obtain rfl | rfl | rfl := hi <;> cases h
  · exact ⟨_, _, rfl, .inl ⟨nofun, rfl⟩⟩
  · exact ⟨_, _, rfl, .inl ⟨nofun, rfl⟩⟩
  · exact ⟨_, _, rfl, .inr ⟨rfl, rfl⟩⟩

/-! ## The statements -/

/-- Settles O48: a write of `pc`. -/
theorem frameOfJumpsAndSkips : Obligations.FrameOfJumpsAndSkips := by
  intro i s t hi h
  obtain ⟨pc, rfl⟩ := exec_jump_eq_writePc hi h
  exact ⟨⟨rfl, rfl⟩, ⟨rfl, rfl⟩, ⟨rfl, rfl⟩, ⟨rfl, rfl⟩, ⟨rfl, rfl⟩, fun _ => rfl, ⟨rfl, rfl⟩⟩

/-- Settles O50: a write of one register, and a draw consumed if it is RND. -/
theorem frameOfRegisterWriters : Obligations.FrameOfRegisterWriters := by
  intro i x nn s t hi h
  obtain ⟨v, ports, rfl, hports⟩ := exec_registerWriter_eq hi h
  have hx : ∀ k, (hk : k < 16) → k ≠ x.toNat → (s.x.set x.toNat v x.isLt)[k] = s.x[k] :=
    fun k hk hne => Vector.getElem_set_ne x.isLt hk hne.symm
  refine ⟨hx, rfl, ⟨rfl, rfl⟩, ⟨rfl, rfl⟩, ⟨rfl, rfl⟩, ⟨rfl, rfl⟩, fun _ => rfl, rfl, ?_⟩
  obtain ⟨-, rfl⟩ | ⟨hrnd, rfl⟩ := hports
  · simp
  · simp [hrnd]

/-- Settles O51: the effect of each load is a write of one register and `pc`. -/
theorem frameOfIndexAndTimerLoads : Obligations.FrameOfIndexAndTimerLoads := by
  intro i s t hi h
  obtain ⟨hx, hstack, hdisplay, hstatus, hmem, hports, rfl⟩ : t.x = s.x ∧ SameStack s t ∧ SameDisplay s t ∧
      SameStatus s t ∧ SameMemory s t ∧ SamePorts s t ∧ t = s.effect i := by
    obtain ⟨nnn, rfl⟩ | ⟨x, rfl⟩ | ⟨x, rfl⟩ := hi <;> cases h <;>
      exact ⟨rfl, ⟨rfl, rfl⟩, ⟨rfl, rfl⟩, ⟨rfl, rfl⟩, fun _ => rfl, ⟨rfl, rfl⟩, rfl⟩
  refine ⟨hx, hstack, hdisplay, hstatus, hmem, hports, fun hno => ?_, s.effect_dt, s.effect_st⟩
  by_contra hne
  obtain ⟨nnn, hldx⟩ := State.writer_of_effect_I_ne hne
  exact hno nnn hldx

/-- Settles O53: HALT raises its terminal event. -/
theorem frameOfHalt : Obligations.FrameOfHalt := by
  intro s t h
  cases h
  exact ⟨rfl, ⟨rfl, rfl⟩, ⟨rfl, rfl⟩, ⟨rfl, rfl⟩, ⟨rfl, rfl⟩, fun _ => rfl, ⟨rfl, rfl⟩⟩

/-- Settles O54: only HALT, RET, CALL and DRW have a terminal event, and an effect keeps the status. -/
theorem mostInstructionsAlwaysComplete : Obligations.MostInstructionsAlwaysComplete := by
  intro i s hhalt hret hcall hdrw
  have hnone : s.instrCause i = .none := by
    cases i with
    | halt => exact absurd rfl hhalt
    | ret => exact absurd rfl hret
    | call nnn => exact absurd rfl (hcall nnn)
    | drw x y n => exact absurd rfl (hdrw x y n)
    | _ => rfl
  exact ⟨_, exec_eq_effect hnone, s.effect_run i, s.effect_cause i⟩

end Sys2Proof.Machine
end

section
/-! PROOFS. The launch state field by field and the image that has none (spec/70_reset_and_hazards.md). -/

namespace Sys2Proof.Machine

/-- Settles O56: reset is a literal, and memory reads as the image where it lies and 0x00 elsewhere. -/
theorem launchStateAsTabled : Obligations.LaunchStateAsTabled := by
  intro img hfit
  have himage : ∀ k, (hk : k < img.length) → (Memory.ofImage img).read (0x200 + k) = img[k] := by
    intro k hk
    rw [Memory.read_ofImage hfit, if_pos (Nat.le_add_right _ _), Nat.add_sub_cancel_left, List.getElem?_eq_getElem hk,
      Option.getD_some]
  have helse : ∀ a, a < 0x200 ∨ 0x200 + img.length ≤ a → (Memory.ofImage img).read a = 0 := by
    intro a ha
    rw [Memory.read_ofImage hfit, show Config.loadBase = 0x200 from rfl]
    split
    · rw [List.getElem?_eq_none (by omega), Option.getD_none]
    · rfl
  exact ⟨_, launch_eq_ok_iff.2 ⟨hfit, rfl⟩, fun k hk => Vector.getElem_replicate hk, rfl, rfl, rfl,
    fun k hk => Vector.getElem_replicate hk, rfl, rfl, fun r hr => Vector.getElem_replicate hr, rfl, rfl, rfl, rfl, rfl,
    himage, helse⟩

/-- Settles O57: the length is checked before anything is loaded. -/
theorem overlongImageIsRefused : Obligations.OverlongImageIsRefused := by
  intro img hlong
  have hfit : ¬ imageFits img = true := by simpa [imageFits] using hlong
  rw [launch, if_neg hfit]

end Sys2Proof.Machine
end
